-- ==== Sys2Proof/Word.lean ====
section
/-! DEFINITION. The words of the block: command words, response words, reals as their binary64 encodings,
complex numbers and bit tuples (00_scope R12, R13; 20_memory R60, R64). -/

namespace Sys2Proof

/-- A command or extension word (30_encoding R90). -/
abbrev Word := BitVec 32

/-- A response word, or an integer register zero-extended (10_state R22). -/
abbrev Word64 := BitVec 64

/-- A byte of a byte-wide command transport (20_memory R69). -/
abbrev Byte := BitVec 8

/-- A real, held as its IEEE 754 binary64 encoding, so that `bits64` and `real64` are the identity
(00_scope R13, 44_kernels R204). -/
abbrev Real64 := BitVec 64

/-- A complex number `re+imj`: a pair of reals (00_scope R13). -/
structure Cplx where
  re : Real64
  im : Real64
deriving DecidableEq, Repr, Inhabited

/-- A bit tuple `(t_0, …, t_{BPS-1})`, element 0 first (20_memory R64). -/
abbrev BitTuple := List Bool

/-- On the bit port a tuple is the word whose bit `i` is element `i` (20_memory R64). -/
def tupleWord : BitTuple → Nat
  | [] => 0
  | b :: bs => b.toNat + 2 * tupleWord bs

end Sys2Proof
end

