-- ==== Sys2Proof/Config.lean ====
section
/-! DEFINITION. The configuration of the block (00_scope R8, tables P1 and P2), which no command writes, and
the free values: uninterpreted constants with no body, about whose values nothing can be proved. -/

namespace Sys2Proof

/-- What stands in the place of the numerics record or of a kernel (44_kernels R204, R195): the spec's reference
instantiation, or some other of the same arguments, which is left uninterpreted. Logs 2, 5. -/
inductive Kernel where
  | reference
  | other (id : Nat)
deriving DecidableEq, Repr, Inhabited

/-- Which function stands in the place of `equalize_signal` (44_kernels R201, R202): a solver, left
uninterpreted because the spec fixes neither its method nor its rounding, or the constant function of value
`h`, which is a function of the four arguments like any other. Log 6. -/
inductive Equalizer where
  | solver (id : Nat)
  | constant (h : List Real64)
deriving DecidableEq, Repr, Inhabited

/-- The parameters of 00_scope tables P1 and P2 and the choice of the configuration functions. Names as in the
tables, in lower case. Fixed for the life of the machine: no rule writes one (R8). Log 1. -/
structure Config where
  /-- `Fs`, the sample rate; read only by the relation `baud × Nsym = Fs` of R9. -/
  fs : Real64
  /-- `Fc`, the pilot frequency; divisor of the drift correction (43_drift_loop R184). -/
  fc : Real64
  /-- `Nsym`, the samples of one symbol window. -/
  nsym : Nat
  /-- `Nfreq`, the number of tones in the tone set. -/
  nfreq : Nat
  /-- `frequencies[]`, the tone set; read only by the relation of R11. -/
  frequencies : List Real64
  /-- `baud`, the symbol periods of one second of audio. -/
  baud : Nat
  /-- `EQLEN`, the symbol windows of the training block. -/
  eqlen : Nat
  /-- `SILENCE_LEN`, the samples of the silence gap. -/
  silenceLen : Nat
  /-- `ORDER`, handed to `equalize_signal`. -/
  order : Nat
  /-- `LOOKAHEAD`, handed to `equalize_signal` and captured beyond the training block. -/
  lookahead : Nat
  /-- `KFREQ`, the drift-loop constant. -/
  kfreq : Real64
  /-- `NTONE`, the tones demodulated. -/
  ntone : Nat
  /-- `DFREQ`, the demodulated frequencies in tone order; read only by the relation of R11. -/
  dfreq : List Real64
  /-- `REF[t][n]`, the reference tones. -/
  ref : List (List Cplx)
  /-- `CSCALE`, the correlator's output scale. -/
  cscale : Real64
  /-- `M`, the number of constellation points. -/
  m : Nat
  /-- `BPS`, the bits of one tuple. -/
  bps : Nat
  /-- `CONST`, the constellation. -/
  const : List Cplx
  /-- `BITMAP`, the bit tuples of the constellation points. -/
  bitmap : List BitTuple
  /-- `TRAINSYM[k][t]`, the known training symbols. -/
  trainsym : List (List Cplx)
  /-- `TRAINALPHA`, the distinct training symbol values. -/
  trainalpha : List Cplx
  /-- `TRAINWAVE`, the known training waveform. -/
  trainwave : List Real64
  /-- `NCOEF`, the coefficients `equalize_signal` returns. -/
  ncoef : Nat
  /-- `SILENCE_POST`, the samples discarded after the capture. -/
  silencePost : Nat
  /-- `Num`, the numerics record (44_kernels R204). Log 2. -/
  num : Kernel
  /-- The function in the place of `correlate` (44_kernels R196). -/
  correlate : Kernel
  /-- The function in the place of `slice` (44_kernels R198). -/
  slice : Kernel
  /-- The function in the place of `ratio` (44_kernels R199). -/
  ratio : Kernel
  /-- The function in the place of `angle` (44_kernels R200). -/
  angle : Kernel
  /-- The function in the place of `equalize_signal` (44_kernels R201). -/
  equalizer : Equalizer
  /-- The function in the place of `fir_apply` (44_kernels R203). -/
  firApply : Kernel
deriving DecidableEq, Repr

/-- What the Sampler does when it is asked for samples: the samples it delivers, in order, and whether it
reports a failure. The status `ok`, `short` or `error` follows from these (20_memory R62, log 10). -/
structure PullAnswer where
  samples : List Real64
  failed : Bool
deriving DecidableEq, Repr, Inhabited

/-- The bit sink's answer to a push (20_memory R64). -/
inductive PushAnswer where
  | ok
  | error
deriving DecidableEq, Repr, Inhabited

/-- The operations of `Num` that give a real, and `angle`: labels for the free values that belong to them. -/
inductive RealOp where
  | add | sub | mul | div | angle
deriving DecidableEq, Repr, Inhabited

/-- Free value: the Sampler's answer to a pull of `n` samples, from its hidden state and the controls it reads
(00_scope R6 (3), 20_memory R62). Log 8. -/
opaque Config.samplerAnswer (hidden n : Nat) (freq offset : Real64) (h : List Real64) : PullAnswer

/-- Free value: the Sampler's hidden state after that pull. Log 8. -/
opaque Config.samplerNext (hidden n : Nat) (freq offset : Real64) (h : List Real64) : Nat

/-- Free value: the bit sink's answer to a push (20_memory R64). Log 9. -/
opaque Config.sinkAnswer (hidden : Nat) (t : BitTuple) : PushAnswer

/-- Free value: the sink's hidden state after that push. Log 9. -/
opaque Config.sinkNext (hidden : Nat) (t : BitTuple) : Nat

/-- Free value: the sign and the fraction field of a NaN result of `op` on `a` and `b`. IEEE 754 does not fix
them (44_kernels R204). Log 4. -/
opaque Config.nanResult (op : RealOp) (a b : Real64) : Bool × BitVec 52

/-- Free value: the real that a record other than the reference gives for `op` (44_kernels R204). Log 2. -/
opaque Config.otherNum (id : Nat) (op : RealOp) (a b : Real64) : Real64

/-- Free value: how such a record answers `a < b`. Log 2. -/
opaque Config.otherLt (id : Nat) (a b : Real64) : Bool

/-- Free value: how such a record answers `a = b`. Log 2. -/
opaque Config.otherEq (id : Nat) (a b : Real64) : Bool

/-- Free value: the reference `angle` off the points where 44_kernels R200 gives its value. Log 7. -/
opaque Config.angleValue (z : Cplx) : Real64

/-- Free value: a correlator other than the reference (44_kernels R196). Log 5. -/
opaque Config.otherCorrelate (id : Nat) (c : Config) (w : List Real64) (t : Nat) : Cplx

/-- Free value: a slicer other than the reference (44_kernels R198). Log 5. -/
opaque Config.otherSlice (id : Nat) (c : Config) (s : Cplx) : Nat

/-- Free value: an error ratio other than the reference (44_kernels R199). Log 5. -/
opaque Config.otherRatio (id : Nat) (c : Config) (s p : Cplx) : Cplx

/-- Free value: an angle function other than the reference, off the same points (44_kernels R200). Logs 5, 7. -/
opaque Config.otherAngle (id : Nat) (c : Config) (z : Cplx) : Real64

/-- Free value: a FIR filter other than the reference (44_kernels R203). Log 5. -/
opaque Config.otherFir (id : Nat) (c : Config) (h x : List Real64) : List Real64

/-- Free value: what a solver returns; a function of the four arguments of 44_kernels R201. Log 6. -/
opaque Config.solve (id : Nat) (signal expected : List Real64) (order lookahead : Nat) : List Real64

/-- The test configuration T1 of 95_test_vectors section 2, with the reference functions. `State.reset` holds
it. DESIGN CHOICE: the spec leaves the configuration to the platform (00_scope R8). Log 1. -/
def Config.t1 : Config where
  fs := 0x4020000000000000
  fc := 0x4000000000000000
  nsym := 4
  nfreq := 1
  frequencies := [0x4000000000000000]
  baud := 2
  eqlen := 2
  silenceLen := 2
  order := 1
  lookahead := 0
  kfreq := 0x3F847AE147AE147B
  ntone := 1
  dfreq := [0x4000000000000000]
  ref := [[⟨0x3FF0000000000000, 0⟩, ⟨0, 0x3FF0000000000000⟩, ⟨0xBFF0000000000000, 0⟩,
    ⟨0, 0xBFF0000000000000⟩]]
  cscale := 0x3FE0000000000000
  m := 2
  bps := 1
  const := [⟨0x3FF0000000000000, 0⟩, ⟨0xBFF0000000000000, 0⟩]
  bitmap := [[false], [true]]
  trainsym := [[⟨0x3FF0000000000000, 0⟩], [⟨0xBFF0000000000000, 0⟩]]
  trainalpha := [⟨0x3FF0000000000000, 0⟩, ⟨0xBFF0000000000000, 0⟩]
  trainwave := [0x3FF0000000000000, 0, 0xBFF0000000000000, 0, 0xBFF0000000000000, 0,
    0x3FF0000000000000, 0]
  ncoef := 1
  silencePost := 0
  num := .reference
  correlate := .reference
  slice := .reference
  ratio := .reference
  angle := .reference
  equalizer := .solver 0
  firApply := .reference

end Sys2Proof
end

