-- ==== Sys2Proof/Machine/Binary64.lean ====
section
/-! DEFINITION. The reference of the numerics record `Num`: IEEE 754 binary64, round to nearest even, one rounding per
operation (00_scope R13, 44_kernels R204; logs 3, 4). A finite value is its magnitude in units of 2^-1074, the least
positive binary64 value, with a sign; every operation is computed exactly on integers and rounded once. `n <<< k` is
n·2^k. -/

namespace Sys2Proof.Machine

/-- The exponent field, bits 62 to 52. -/
def expField (x : Real64) : Nat := x.toNat / 2 ^ 52 % 2048

/-- The fraction field, bits 51 to 0. -/
def fracField (x : Real64) : Nat := x.toNat % 2 ^ 52

/-- The sign bit, bit 63. -/
def isNegative (x : Real64) : Bool := x.msb

/-- Neither a NaN nor an infinity. -/
def isFinite (x : Real64) : Bool := expField x != 2047

def isNaN (x : Real64) : Bool := expField x == 2047 && fracField x != 0

def isInf (x : Real64) : Bool := expField x == 2047 && fracField x == 0

/-- A zero of either sign. -/
def isZero (x : Real64) : Bool := x.toNat % 2 ^ 63 == 0

/-- The magnitude of a finite value, in units of 2^-1074. -/
def magnitude (x : Real64) : Nat :=
  if expField x = 0 then fracField x else (2 ^ 52 + fracField x) <<< (expField x - 1)

/-- The value of a finite real, in units of 2^-1074. -/
def unitsOf (x : Real64) : Int := if isNegative x then -(magnitude x : Int) else magnitude x

/-- The encoding with this sign and these 63 lower bits. -/
def withSign (neg : Bool) (low : Nat) : Real64 := BitVec.ofNat 64 (low + if neg then 2 ^ 63 else 0)

def realInf (neg : Bool) : Real64 := withSign neg (2047 * 2 ^ 52)

def realZero (neg : Bool) : Real64 := withSign neg 0

/-- Some NaN; its sign and fraction field are free (log 4). A fraction field of 0 would be an infinity, so the
free value 0 stands for the fraction with only its top bit set. -/
def realNaN (op : RealOp) (a b : Real64) : Real64 :=
  let free := Config.nanResult op a b
  withSign free.1 (2047 * 2 ^ 52 + if free.2 = 0 then 2 ^ 51 else free.2.toNat)

/-- The binary64 value nearest to `num / den` units of 2^-1074, ties to even; beyond the largest finite value,
an infinity. With `k` binary places dropped and `m` the rounded significand, the encoding is `k·2^52 + m`. -/
def roundUnits (neg : Bool) (num den : Nat) : Real64 :=
  let k := Nat.log2 (num / den) - 52
  let d := den <<< k
  let q := num / d
  let r := num % d
  let m := if 2 * r > d ∨ (2 * r = d ∧ q % 2 = 1) then q + 1 else q
  withSign neg (min (k * 2 ^ 52 + m) (2047 * 2 ^ 52))

/-- Unary minus: the sign bit is inverted. -/
def realNeg (x : Real64) : Real64 := x ^^^ 0x8000000000000000

/-- The sum of two reals neither of which is a NaN; `nan` is what an invalid sum gives. An exact zero sum is
+0, but for two zeros of sign minus. -/
def sumOf (nan a b : Real64) : Real64 :=
  if isInf a then (if isInf b && isNegative a != isNegative b then nan else a)
  else if isInf b then b
  else
    let v := unitsOf a + unitsOf b
    if v = 0 then realZero (isNegative a && isNegative b)
    else roundUnits (decide (v < 0)) v.natAbs 1

/-- `a + b` (00_scope R13). -/
def realAdd (a b : Real64) : Real64 :=
  let nan := realNaN .add a b
  if isNaN a || isNaN b then nan else sumOf nan a b

/-- `a − b` (00_scope R13). -/
def realSub (a b : Real64) : Real64 :=
  let nan := realNaN .sub a b
  if isNaN a || isNaN b then nan else sumOf nan a (realNeg b)

/-- `a × b` (00_scope R13). -/
def realMul (a b : Real64) : Real64 :=
  let neg := isNegative a != isNegative b
  if isNaN a || isNaN b then realNaN .mul a b
  else if isInf a || isInf b then
    if isZero a || isZero b then realNaN .mul a b else realInf neg
  else roundUnits neg (magnitude a * magnitude b) (1 <<< 1074)

/-- `a / b` (00_scope R13). -/
def realDiv (a b : Real64) : Real64 :=
  let neg := isNegative a != isNegative b
  if isNaN a || isNaN b then realNaN .div a b
  else if isInf a then (if isInf b then realNaN .div a b else realInf neg)
  else if isInf b then realZero neg
  else if isZero b then (if isZero a then realNaN .div a b else realInf neg)
  else roundUnits neg (magnitude a <<< 1074) (magnitude b)

/-- `a < b`; false when either is a NaN (44_kernels R204). -/
def realLt (a b : Real64) : Bool :=
  if isNaN a || isNaN b then false
  else if isInf a then isNegative a && !(isInf b && isNegative b)
  else if isInf b then !isNegative b
  else decide (unitsOf a < unitsOf b)

/-- `a = b` as numbers: the zeros are equal, a NaN equals nothing (44_kernels R204, log 18). -/
def realEq (a b : Real64) : Bool :=
  !isNaN a && !isNaN b && (a == b || (isZero a && isZero b))

/-- A natural number as a real, rounded to nearest even; exact below 2^53 (44_kernels R207 (f)). -/
def realOfNat (n : Nat) : Real64 := roundUnits false (n <<< 1074) 1

/-- The real nearest to `± digits × 10^e10` (30_encoding R102). -/
def realOfDecimal (neg : Bool) (digits : Nat) (e10 : Int) : Real64 :=
  roundUnits neg ((digits <<< 1074) * 10 ^ e10.toNat) (10 ^ (-e10).toNat)

/-- The real nearest to `± digits × 2^e2`, for a hexadecimal-float literal (30_encoding R102). -/
def realOfBinary (neg : Bool) (digits : Nat) (e2 : Int) : Real64 :=
  roundUnits neg (digits <<< (1074 + e2.toNat)) (1 <<< (-e2).toNat)

/-- 1.0. -/
def realOne : Real64 := 0x3FF0000000000000

/-- +0.0. -/
def realPosZero : Real64 := 0

/-- π, 44_kernels R200. -/
def realPi : Real64 := 0x400921FB54442D18

/-- π/2, an exact halving of π (44_kernels R205). -/
def realHalfPi : Real64 := 0x3FF921FB54442D18

/-- π/4 (44_kernels R200). -/
def realQuarterPi : Real64 := 0x3FE921FB54442D18

/-- `TWO_PI` (44_kernels R205). -/
def realTwoPi : Real64 := 0x401921FB54442D18

end Sys2Proof.Machine
end

