-- ==== Sys2Proof/Machine/Num.lean ====
section
/-! DEFINITION. The numerics record `Num` that the configuration names (00_scope table P2, R13; 44_kernels R204;
log 2): the reference, binary64, or another record, whose five operations are left uninterpreted. Every rule that
computes with reals goes through these operations. -/

namespace Sys2Proof.Machine

/-- `a + b` in `Num`. -/
def numAdd (c : Config) (a b : Real64) : Real64 :=
  match c.num with
  | .reference => realAdd a b
  | .other id => Config.otherNum id .add a b

/-- `a − b` in `Num`. -/
def numSub (c : Config) (a b : Real64) : Real64 :=
  match c.num with
  | .reference => realSub a b
  | .other id => Config.otherNum id .sub a b

/-- `a × b` in `Num`. -/
def numMul (c : Config) (a b : Real64) : Real64 :=
  match c.num with
  | .reference => realMul a b
  | .other id => Config.otherNum id .mul a b

/-- `a / b` in `Num`. -/
def numDiv (c : Config) (a b : Real64) : Real64 :=
  match c.num with
  | .reference => realDiv a b
  | .other id => Config.otherNum id .div a b

/-- `a < b` in `Num`. -/
def numLt (c : Config) (a b : Real64) : Bool :=
  match c.num with
  | .reference => realLt a b
  | .other id => Config.otherLt id a b

/-- `a = b` in `Num` (log 18). -/
def numEq (c : Config) (a b : Real64) : Bool :=
  match c.num with
  | .reference => realEq a b
  | .other id => Config.otherEq id a b

end Sys2Proof.Machine
end

