-- ==== Sys2Proof/Machine/Kernels.lean ====
section
/-! DEFINITION. The configuration functions (44_kernels R195 to R205) and the mean phase (43_drift_loop R182, R185),
in the arithmetic of the configuration's `Num`: each calls the spec's reference instantiation or the uninterpreted
function the configuration names. -/

namespace Sys2Proof.Machine

/-- `0+0j`. -/
def cplxZero : Cplx := ⟨realPosZero, realPosZero⟩

/-- Component-wise sum (00_scope R13). -/
def cplxAdd (c : Config) (x y : Cplx) : Cplx := ⟨numAdd c x.re y.re, numAdd c x.im y.im⟩

/-- `conj(a+bj) = a+(−b)j` (00_scope R13). -/
def cplxConj (z : Cplx) : Cplx := ⟨z.re, realNeg z.im⟩

/-- Real times complex (00_scope R13). -/
def cplxScale (c : Config) (r : Real64) (z : Cplx) : Cplx := ⟨numMul c r z.re, numMul c r z.im⟩

/-- Equality as numbers, component by component (log 18). -/
def cplxEq (c : Config) (x y : Cplx) : Bool := numEq c x.re y.re && numEq c x.im y.im

/-- `|x − y|²`, as 44_kernels R198 writes it. -/
def distSq (c : Config) (x y : Cplx) : Real64 :=
  let dr := numSub c x.re y.re
  let di := numSub c x.im y.im
  numAdd c (numMul c dr dr) (numMul c di di)

/-- The reference correlator (44_kernels R197). -/
def refCorrelate (c : Config) (w : List Real64) (t : Nat) : Cplx :=
  cplxScale c c.cscale <|
    (w.zip (c.ref.getD t [])).foldl (fun acc p => cplxAdd c acc (cplxScale c p.1 (cplxConj p.2))) cplxZero

/-- `correlate(W, t)` (44_kernels R196, R197). -/
def correlate (c : Config) (w : List Real64) (t : Nat) : Cplx :=
  match c.correlate with
  | .reference => refCorrelate c w t
  | .other id => Config.otherCorrelate id c w t

/-- The loop of `nearest`: `i` is the index of the next point, `best` and `dbest` the best so far. A tie keeps
the lower index (44_kernels R198). -/
def nearestFrom (c : Config) (s : Cplx) (i best : Nat) (dbest : Real64) : List Cplx → Nat
  | [] => best
  | p :: ps =>
    let d := distSq c s p
    if numLt c d dbest then nearestFrom c s (i + 1) i d ps else nearestFrom c s (i + 1) best dbest ps

/-- `nearest(P, S)`: the index of the point of `P` nearest to `S` (44_kernels R198). -/
def nearest (c : Config) (points : List Cplx) (s : Cplx) : Nat :=
  match points with
  | [] => 0
  | p :: ps => nearestFrom c s 1 0 (distSq c s p) ps

/-- `slice(S)`, an index into `CONST` (44_kernels R198). A slicer other than the reference answers a valid
index too: its free value counts modulo `M` (log 21). -/
def slice (c : Config) (s : Cplx) : Nat :=
  match c.slice with
  | .reference => nearest c c.const s
  | .other id => Config.otherSlice id c s % c.const.length

/-- The reference quotient `received/decoded` (44_kernels R199). -/
def refRatio (c : Config) (s p : Cplx) : Cplx :=
  let den := numAdd c (numMul c p.re p.re) (numMul c p.im p.im)
  ⟨numDiv c (numAdd c (numMul c s.re p.re) (numMul c s.im p.im)) den,
   numDiv c (numSub c (numMul c s.im p.re) (numMul c s.re p.im)) den⟩

/-- `ratio(S, c)` (44_kernels R199). -/
def ratio (c : Config) (s p : Cplx) : Cplx :=
  match c.ratio with
  | .reference => refRatio c s p
  | .other id => Config.otherRatio id c s p

/-- Whether `−π < x ≤ π`, the range of `angle` (44_kernels R200), in the order of the encodings. -/
def inAngleRange (x : Real64) : Bool :=
  realLt (realNeg realPi) x && (realLt x realPi || realEq x realPi)

/-- What is assumed of every `angle` (93 U14, log 7): the values R200 and R205 of 44_kernels give on the axes and on
the diagonals of positive real part, a zero part of either sign counting as zero; elsewhere `free` where that is in
the range. An argument with a NaN gives a NaN (93 U17). -/
def angleWith (free : Real64) (z : Cplx) : Real64 :=
  if isNaN z.re || isNaN z.im then realNaN .angle z.re z.im
  else if isZero z.im then
    if isZero z.re || !isNegative z.re then realPosZero else realPi
  else if isZero z.re then
    if isNegative z.im then realNeg realHalfPi else realHalfPi
  else if !isNegative z.re && z.im == z.re then realQuarterPi
  else if !isNegative z.re && z.im == realNeg z.re then realNeg realQuarterPi
  else if inAngleRange free then free else realPosZero

/-- The reference `angle` (44_kernels R200). -/
def refAngle (z : Cplx) : Real64 := angleWith (Config.angleValue z) z

/-- `angle(z)` (44_kernels R200). -/
def angle (c : Config) (z : Cplx) : Real64 :=
  match c.angle with
  | .reference => refAngle z
  | .other id => angleWith (Config.otherAngle id c z) z

/-- A list of `n` finite reals made from `l`: entry `k` is `l[k]` where that is a finite real, else +0. Every
list of `n` finite reals is its own image. -/
def finiteList (n : Nat) (l : List Real64) : List Real64 :=
  (List.range n).map fun k =>
    let x := l.getD k realPosZero
    if isFinite x then x else realPosZero

/-- `equalize_signal(signal, TRAINWAVE, ORDER, LOOKAHEAD)`: `NCOEF` finite reals, a function of the four
arguments and nothing more is known (44_kernels R201, R202, 93 U12, log 6). -/
def equalizeSignal (c : Config) (signal : List Real64) : List Real64 :=
  finiteList c.ncoef <|
    match c.equalizer with
    | .solver id => Config.solve id signal c.trainwave c.order c.lookahead
    | .constant h => h

/-- One output sample of the reference FIR filter: `window` holds `x[m], x[m−1], …, x[0]`, so that tap `k`
meets `x[m−k]` and taps beyond the start of the signal meet nothing (44_kernels R203). -/
def firSample (c : Config) (h window : List Real64) : Real64 :=
  (h.zip window).foldl (fun acc p => numAdd c acc (numMul c p.1 p.2)) realPosZero

/-- The loop of the FIR filter over the samples still to come; `past` holds the samples so far, latest first. -/
def firFrom (c : Config) (h past : List Real64) : List Real64 → List Real64
  | [] => []
  | x :: xs => firSample c h (x :: past) :: firFrom c h (x :: past) xs

/-- The reference filter: causal direct form, zero history, output as long as the input (44_kernels R203). -/
def refFir (c : Config) (h x : List Real64) : List Real64 := firFrom c h [] x

/-- `fir_apply(h, x)` (44_kernels R203); the output is as long as the input (41_equalizer_trainer R145). -/
def firApply (c : Config) (h x : List Real64) : List Real64 :=
  match c.firApply with
  | .reference => refFir c h x
  | .other id => (List.range x.length).map fun k => (Config.otherFir id c h x).getD k realPosZero

/-- The phase of one ratio in cycles (43_drift_loop R182). -/
def phaseOf (c : Config) (e : Cplx) : Real64 := numDiv c (angle c e) realTwoPi

/-- The running sum of the phases, in list order (43_drift_loop R185, R186). -/
def phaseSum (c : Config) (l : List Cplx) : Real64 :=
  l.foldl (fun s e => numAdd c s (phaseOf c e)) realPosZero

/-- `MeanPhase(L)` (43_drift_loop R185). -/
def meanPhase (c : Config) (l : List Cplx) : Real64 :=
  if l.length = 0 then realPosZero else numDiv c (phaseSum c l) (realOfNat l.length)

end Sys2Proof.Machine
end

