-- ==== Sys2Proof/Machine/ConfigCheck.lean ====
section
/-! DEFINITION. Which configurations are well-formed (00_scope R10); the model refuses any other (R10, R254,
93 U5). -/

namespace Sys2Proof.Machine

/-- All parts of a complex table entry are finite. -/
def cplxFinite (z : Cplx) : Bool := isFinite z.re && isFinite z.im

/-- The members are pairwise different as numbers. -/
def pairwiseDifferent (c : Config) : List Cplx → Bool
  | [] => true
  | z :: zs => zs.all (fun y => !cplxEq c z y) && pairwiseDifferent c zs

/-- `baud × Nsym = Fs`, exactly (00_scope R9). -/
def rateRelation (c : Config) : Bool :=
  isFinite c.fs && decide (unitsOf c.fs = (((c.baud * c.nsym) <<< 1074 : Nat) : Int))

/-- Every integer parameter is in the range its table row gives, and the bounds of 44_kernels R207 hold
(00_scope R10). -/
def integersOk (c : Config) : Bool :=
  decide (1 ≤ c.nsym ∧ 1 ≤ c.nfreq ∧ 1 ≤ c.baud ∧ 1 ≤ c.eqlen ∧ 1 ≤ c.order ∧ 1 ≤ c.ntone ∧ 1 ≤ c.ncoef ∧
    1 ≤ c.bps ∧ c.m = 2 ^ c.bps ∧ c.baud < 2 ^ 32 ∧ c.baud * c.ntone < 2 ^ 32 ∧
    c.eqlen * c.ntone < 2 ^ 32 ∧ c.ncoef ≤ 0xF000)

/-- The lists and tables have the sizes that 00_scope tables P1 and P2 give them, and `DFREQ` is a sub-list of
`frequencies[]` in the same order (R11). R11 does not say when entries of the two are equal: DESIGN
CHOICE, when their encodings are, so that +0 and −0 differ here. Logs 17, 32. -/
def shapesOk (c : Config) : Bool :=
  c.frequencies.length == c.nfreq && c.dfreq.length == c.ntone && c.dfreq.isSublist c.frequencies &&
  c.ref.length == c.ntone && c.ref.all (fun row => row.length == c.nsym) &&
  c.const.length == c.m && c.bitmap.length == c.m && c.bitmap.all (fun t => t.length == c.bps) &&
  c.trainsym.length == c.eqlen && c.trainsym.all (fun row => row.length == c.ntone) &&
  c.trainwave.length == c.eqlen * c.nsym && c.trainalpha.length != 0

/-- Every table entry, `KFREQ` and `CSCALE` are finite, and `Fc` is finite and nonzero (00_scope R10). R10 does not say
whether the lists `frequencies[]` and `DFREQ` are tables: DESIGN CHOICE, their entries must be finite too. Log 33. -/
def realsOk (c : Config) : Bool :=
  isFinite c.fc && !isZero c.fc && isFinite c.kfreq && isFinite c.cscale &&
  c.frequencies.all isFinite && c.dfreq.all isFinite && c.trainwave.all isFinite &&
  c.const.all cplxFinite && c.trainalpha.all cplxFinite &&
  c.ref.all (fun row => row.all cplxFinite) && c.trainsym.all (fun row => row.all cplxFinite)

/-- The constellation and the training alphabet: no point is zero, members are pairwise different, every training
symbol is a member of the alphabet (00_scope R10). -/
def symbolsOk (c : Config) : Bool :=
  c.const.all (fun z => !cplxEq c z cplxZero) && pairwiseDifferent c c.const && pairwiseDifferent c c.trainalpha &&
  c.trainsym.all (fun row => row.all fun z => c.trainalpha.any (cplxEq c z))

/-- The configuration is well-formed: the checks of 00_scope R10, and those that the model adds (logs 17, 32, 33). -/
def configOk (c : Config) : Bool :=
  rateRelation c && integersOk c && shapesOk c && realsOk c && symbolsOk c

end Sys2Proof.Machine
end

