-- ==== Sys2Proof/Machine/State.lean ====
section
/-! DEFINITION. The state of the block (10_state), the reasons a step can stop, and the state after reset
(70_reset R251). -/

namespace Sys2Proof.Machine

/-- `MODE` (10_state R24). The codes 5 to 7 are never held, so they are no constructors (93 U18, log 19). -/
inductive Mode where
  | pre
  | training
  | demodulating
  | done
  | failed
deriving DecidableEq, Repr, Inhabited

/-- The 3-bit encoding of `MODE` (10_state R24). -/
def Mode.code : Mode → BitVec 3
  | .pre => 0
  | .training => 1
  | .demodulating => 2
  | .done => 3
  | .failed => 4

/-- DONE and FAILED are terminal (00_scope R17). -/
def Mode.terminal : Mode → Bool
  | .done => true
  | .failed => true
  | .pre => false
  | .training => false
  | .demodulating => false

/-- `CAUSE` (60_exceptions R220). The codes 8 to 255 are never held (93 U18, log 19). -/
inductive Cause where
  | none
  | noCarrier
  | badPrefix
  | eqValidation
  | unexpected
  | underrun
  | illegalCommand
  | host
deriving DecidableEq, Repr, Inhabited

/-- The 8-bit encoding of `CAUSE` (60_exceptions R220). -/
def Cause.code : Cause → BitVec 8
  | .none => 0
  | .noCarrier => 1
  | .badPrefix => 2
  | .eqValidation => 3
  | .unexpected => 4
  | .underrun => 5
  | .illegalCommand => 6
  | .host => 7

/-- The place inside a running RUN (42_demodulator R169): its operand `n` and the count `i` of SYM steps done;
no count is kept for `n` = 0 (44_kernels R207 (d)). -/
structure RunLoop where
  n : BitVec 24
  i : BitVec 24
deriving DecidableEq, Repr, Inhabited

/-- The state of the machine. Registers are named as in 10_state table S1, in lower case. -/
structure State where
  /-- The configuration; no rule writes it (00_scope R8, 10_state R34). -/
  cfg : Config
  /-- `MODE` (R24). -/
  mode : Mode
  /-- `STATUS` bit 0, `EQVALID` (R26). -/
  eqValid : Bool
  /-- `STATUS` bit 1, `EXHAUSTED` (R26). -/
  exhausted : Bool
  /-- `CAUSE` (R27). -/
  cause : Cause
  /-- `FREQ` (R28). -/
  freq : Real64
  /-- `OFFSET` (R29). -/
  offset : Real64
  /-- `SYMCNT` (R30). -/
  symcnt : BitVec 32
  /-- `ERR`, oldest first (R31); `ERRN` is its length. -/
  err : List Cplx
  /-- `BLKTOT` (R33). -/
  blktot : Word64
  /-- `BITCNT` (R33). -/
  bitcnt : Word64
  /-- `NCORR` (R33). -/
  ncorr : Word64
  /-- `LASTERR` (R33). -/
  lasterr : Real64
  /-- `H`, the installed coefficients (R32); `NCOEF_INST` is its length. -/
  h : List Real64
  /-- `TRAINERR` (R33). -/
  trainerr : BitVec 32
  /-- `OUT`, the tuples pushed in this session, first pushed first (R36). -/
  out : List BitTuple
  /-- `PULLED`, the samples taken in this session (R36). -/
  pulled : Nat
  /-- The RUN in progress, if one is (42_demodulator R169). -/
  run : Option RunLoop
  /-- The command words issued and not yet started, first issued first (20_memory R60 (1), 10_state R35 (d)). -/
  cmds : List Word
  /-- The response stream, first made first (20_memory R66). -/
  resp : List Word64
  /-- The reset input is asserted (70_reset R250, log 13). -/
  resetIn : Bool
  /-- The model's own: the Sampler's answers to the next pulls, as far as they are chosen (log 8). -/
  samplerIn : List PullAnswer
  /-- The model's own: stands for the Sampler's hidden state (10_state R35, log 8). -/
  samplerState : Nat
  /-- The model's own: the sink's answers to the next pushes, as far as they are chosen (log 9). -/
  sinkIn : List PushAnswer
  /-- The model's own: stands for the sink's hidden state (log 9). -/
  sinkState : Nat
deriving DecidableEq, Repr

/-- The reasons for which the machine stops with a fault: none. Every fault of the spec is an entry to FAILED,
a next state (60_exceptions R226), and nothing else stops the block. -/
inductive Fault where
deriving DecidableEq, Repr

/-- The reasons for which a step is refused. -/
inductive Refusal where
  /-- Raised by an arm of `exec` whose instruction has no meaning yet; no arm raises it now. Safe. -/
  | notModelled (mnemonic : String)
  /-- Raised by `step` in a state whose configuration is not well-formed: the rules give such a configuration no
  meaning and a model refuses it (00_scope R10, 93 U5). Safe. -/
  | illFormedConfiguration
deriving DecidableEq, Repr

/-- The state right after reset of a block with configuration `c` (70_reset R251), with nothing issued and no
answer chosen. -/
def State.fresh (c : Config) : State where
  cfg := c
  mode := .pre
  eqValid := false
  exhausted := false
  cause := .none
  freq := 0x3FF0000000000000
  offset := 0
  symcnt := 0
  err := []
  blktot := 0
  bitcnt := 0
  ncorr := 0
  lasterr := 0
  h := []
  trainerr := 0
  out := []
  pulled := 0
  run := none
  cmds := []
  resp := []
  resetIn := false
  samplerIn := []
  samplerState := 0
  sinkIn := []
  sinkState := 0

/-- The state after reset (70_reset R251). Its configuration is T1 of 95_test_vectors (log 1). -/
def State.reset : State := State.fresh Config.t1

end Sys2Proof.Machine
end

