-- ==== Sys2Proof/Machine/Flags.lean ====
section
/-! DEFINITION. The two flags of `STATUS` (10_state R26). There are no arithmetic condition codes. -/

namespace Sys2Proof.Machine

/-- `STATUS`: bit 0 is `EQVALID`, bit 1 is `EXHAUSTED`, the others read as zero. -/
def statusWord (s : State) : BitVec 2 := BitVec.ofBool s.exhausted ++ BitVec.ofBool s.eqValid

/-- The first pull answered `short` sets `EXHAUSTED` (20_memory R63). -/
def setExhausted (s : State) : State := { s with exhausted := true }

end Sys2Proof.Machine
end

