-- ==== Sys2Proof/Syntax.lean ====
section
/-! DEFINITION. The commands: one constructor per row of spec/opcode_table.json (30_encoding R94). -/

namespace Sys2Proof

/-- The eight commands of CMD-IF version 1. Every operand value that the formats of 30_encoding R91 can carry is
a term; which of them are legal is `Instr.wellFormed` (R95) and, at run time, the meaning (R97). -/
inductive Instr where
  /-- `NOP` (40_host_commands R120). -/
  | nop
  /-- `RDREG r` (R121). -/
  | rdreg (r : BitVec 16)
  /-- `FADJ delta` (R122); `delta` is `real64(ext1 ++ ext0)` (30_encoding R92). -/
  | fadj (delta : Real64)
  /-- `TRAIN` (41_equalizer_trainer R140). -/
  | train
  /-- `SYM` (42_demodulator R160). -/
  | sym
  /-- `RUN n` (42_demodulator R169). -/
  | run (n : BitVec 24)
  /-- `ABORT c` (40_host_commands R123). -/
  | abort (c : BitVec 8)
  /-- `RESET` (R124). -/
  | reset
deriving DecidableEq, Repr, Inhabited

end Sys2Proof
end

