-- ==== Sys2Proof/Machine/Operands.lean ====
section
/-! DEFINITION. Operands: the register numbers RDREG reads, the cause codes ABORT takes, the command's legality
in the mode (30_encoding R95, R100). -/

namespace Sys2Proof.Machine

/-- The constant register `ID` (10_state table S1). -/
def idValue : Word64 := 0x0000000000430001

/-- A length held in a 32-bit register, zero-extended: `ERRN` and `NCOEF_INST` (10_state R23, log 20). -/
def lengthWord (n : Nat) : Word64 := (BitVec.ofNat 32 n).setWidth 64

/-- The registers 0x0000 to 0x000D of table S1, each as its 64-bit word: an integer zero-extended, a real as its
binary64 bits (10_state R22). -/
def namedRegister (s : State) : Nat → Option Word64
  | 0x0 => some idValue
  | 0x1 => some (s.mode.code.setWidth 64)
  | 0x2 => some ((statusWord s).setWidth 64)
  | 0x3 => some (s.cause.code.setWidth 64)
  | 0x4 => some s.freq
  | 0x5 => some s.offset
  | 0x6 => some (s.symcnt.setWidth 64)
  | 0x7 => some (lengthWord s.err.length)
  | 0x8 => some s.blktot
  | 0x9 => some s.bitcnt
  | 0xA => some s.ncorr
  | 0xB => some s.lasterr
  | 0xC => some (lengthWord s.h.length)
  | 0xD => some (s.trainerr.setWidth 64)
  | _ => none

/-- The register space (20_memory R72): the word of register `r`, or nothing where `r` is unimplemented. -/
def readReg (r : BitVec 16) (s : State) : Option Word64 :=
  if r.toNat < 0x1000 then namedRegister s r.toNat else s.h[r.toNat - 0x1000]?

/-- The cause that ABORT's operand names, where the host may report it (30_encoding R95). -/
def hostCause (c : BitVec 8) : Option Cause :=
  if c = 1 then some .noCarrier
  else if c = 2 then some .badPrefix
  else if c = 7 then some .host
  else none

/-- What becomes of a command in a mode (30_encoding R100). -/
inductive Legality where
  /-- Executed as its rule says. -/
  | ok
  /-- Illegal by R97 (d). -/
  | ill
  /-- Ignored by R99. -/
  | ign
deriving DecidableEq, Repr, Inhabited

/-- The table of 30_encoding R100, a row a command. -/
def legality : Instr → Mode → Legality
  | .nop, _ => .ok
  | .rdreg _, _ => .ok
  | .reset, _ => .ok
  | .fadj _, .pre => .ok
  | .fadj _, .training => .ill
  | .fadj _, .demodulating => .ill
  | .fadj _, .done => .ign
  | .fadj _, .failed => .ign
  | .train, .pre => .ill
  | .train, .training => .ok
  | .train, .demodulating => .ill
  | .train, .done => .ign
  | .train, .failed => .ign
  | .sym, .pre => .ill
  | .sym, .training => .ill
  | .sym, .demodulating => .ok
  | .sym, .done => .ign
  | .sym, .failed => .ign
  | .run _, .pre => .ill
  | .run _, .training => .ill
  | .run _, .demodulating => .ok
  | .run _, .done => .ign
  | .run _, .failed => .ign
  | .abort _, .pre => .ok
  | .abort _, .training => .ok
  | .abort _, .demodulating => .ok
  | .abort _, .done => .ign
  | .abort _, .failed => .ign

end Sys2Proof.Machine
end

