-- ==== Sys2Proof/Machine/Ops.lean ====
section
/-! DEFINITION. The operations the commands share: the fault entry, the four ports, the reset of a session. -/

namespace Sys2Proof.Machine

/-- `raise Fault(c)`, the one exception entry (60_exceptions R226): `CAUSE` and `MODE` are written, a running RUN
ends, nothing is saved, every other register keeps its value. -/
def raiseFault (c : Cause) (s : State) : State := { s with cause := c, mode := .failed, run := none }

/-- The effect of an illegal command (30_encoding R98): Fault(6), or nothing at all in a terminal mode. -/
def illegalCommand (s : State) : State :=
  if s.mode.terminal then s else raiseFault .illegalCommand s

/-- A command whose encoding and operands are legal, in the present mode (30_encoding R97 (d), R99, R100). -/
def inMode (i : Instr) (effect : State → State) (s : State) : State :=
  match legality i s.mode with
  | .ok => effect s
  | .ill => raiseFault .illegalCommand s
  | .ign => s

/-- `Respond(v)` (20_memory R66). -/
def respond (v : Word64) (s : State) : State := { s with resp := s.resp ++ [v] }

/-- The status of a pull (20_memory R62). -/
inductive PullStatus where
  | ok
  | short
  | error
deriving DecidableEq, Repr, Inhabited

/-- The status that the answer to a pull of `n` samples has (20_memory R62): `error` for a reported failure or a
sample that is not finite, which beats `short` (60_exceptions R224 item 4); `short` for fewer than `n`. -/
def pullStatus (n : Nat) (a : PullAnswer) : PullStatus :=
  let xs := a.samples.take n
  if a.failed || !xs.all isFinite then .error
  else if xs.length < n then .short
  else .ok

/-- Asks the Sampler: its next chosen answer, or a free one (20_memory R62, 93 U6, log 8). -/
def askSampler (n : Nat) (s : State) : PullAnswer × State :=
  match s.samplerIn with
  | a :: as => (a, { s with samplerIn := as })
  | [] =>
    (Config.samplerAnswer s.samplerState n s.freq s.offset s.h,
     { s with samplerState := Config.samplerNext s.samplerState n s.freq s.offset s.h })

/-- The block's part of a pull that the Sampler has answered: the samples delivered are consumed, the first
`short` answer is remembered (20_memory R62, R63). -/
def takeAnswer (n : Nat) (a : PullAnswer) (s : State) : List Real64 × PullStatus × State :=
  let xs := a.samples.take n
  let counted := { s with pulled := s.pulled + xs.length }
  match pullStatus n a with
  | .ok => (xs, .ok, counted)
  | .short => (xs, .short, setExhausted counted)
  | .error => (xs, .error, counted)

/-- `SamplerTake(n)` (20_memory R62, R63). -/
def samplerTake (n : Nat) (s : State) : List Real64 × PullStatus × State :=
  if n = 0 then ([], .ok, s)
  else if s.exhausted then ([], .short, s)
  else takeAnswer n (askSampler n s).1 (askSampler n s).2

/-- Asks the bit sink: its next chosen answer, or a free one (20_memory R64, 93 U7, log 9). -/
def askSink (t : BitTuple) (s : State) : PushAnswer × State :=
  match s.sinkIn with
  | a :: as => (a, { s with sinkIn := as })
  | [] =>
    (Config.sinkAnswer s.sinkState t, { s with sinkState := Config.sinkNext s.sinkState t })

/-- `BitPush(t)` (20_memory R64, 42_demodulator R167). -/
def bitPush (t : BitTuple) (s : State) : PushAnswer × State :=
  match askSink t s with
  | (.ok, s') => (.ok, { s' with out := s'.out ++ [t], bitcnt := s'.bitcnt + BitVec.ofNat 64 s'.cfg.bps })
  | (.error, s') => (.error, s')

/-- Pushes the tuples in order; after an `error` the later ones are not offered (60_exceptions R224 item 5). -/
def pushAll : List BitTuple → State → PushAnswer × State
  | [], s => (.ok, s)
  | t :: ts, s =>
    match bitPush t s with
    | (.ok, s') => pushAll ts s'
    | (.error, s') => (.error, s')

/-- A new session (40_host_commands R124, 70_reset R251): every register at its reset value, `H`, `ERR`, `OUT`
and `PULLED` started again. The configuration, the streams outside the block and the words already issued stay. -/
def sessionReset (s : State) : State :=
  { s with
    mode := .pre, eqValid := false, exhausted := false, cause := .none, freq := realOne,
    offset := realPosZero, symcnt := 0, err := [], blktot := 0, bitcnt := 0, ncorr := 0,
    lasterr := realPosZero, h := [], trainerr := 0, out := [], pulled := 0, run := none }

/-- The reset input (70_reset R250): what RESET does, and every word issued and not yet executed is discarded.
Taking it uses the assertion up (log 13). -/
def resetInput (s : State) : State := { sessionReset s with cmds := [], resetIn := false }

end Sys2Proof.Machine
end

