-- ==== Sys2Proof/Machine/Drift.lean ====
section
/-! DEFINITION. The drift loop (43_drift_loop R180 to R188): the correction, made in the SYM step that completes
the interval. -/

namespace Sys2Proof.Machine

/-- `DriftCorrection()` (R184). -/
def driftCorrection (s : State) : State :=
  let mean := meanPhase s.cfg s.err
  { s with
    freq := numSub s.cfg s.freq (numDiv s.cfg (numMul s.cfg s.cfg.kfreq mean) s.cfg.fc)
    offset := numSub s.cfg s.offset mean
    err := []
    symcnt := 0
    ncorr := s.ncorr + 1
    lasterr := mean }

/-- The counters of a block whose tuples are all pushed (42_demodulator R168). -/
def countBlock (s : State) : State := { s with blktot := s.blktot + 1, symcnt := s.symcnt + 1 }

/-- The trigger: the correction is made when the increment makes `SYMCNT` equal to `baud` (R183). -/
def driftTrigger (s : State) : State :=
  if s.symcnt.toNat = s.cfg.baud then driftCorrection s else s

end Sys2Proof.Machine
end

