-- ==== Sys2Proof/Machine/Demod.lean ====
section
/-! DEFINITION. The steady-state demodulator, commands SYM and RUN (42_demodulator R160 to R171). -/

namespace Sys2Proof.Machine

/-- `S[t]` for every tone, in tone order (R162, R170). -/
def blockSymbols (c : Config) (w : List Real64) : List Cplx := (List.range c.ntone).map (correlate c w)

/-- `e[t]`: received over decoded (R164). -/
def symbolRatio (c : Config) (z : Cplx) : Cplx := ratio c z (c.const.getD (slice c z) cplxZero)

/-- `BITMAP[k[t]]` (R163). -/
def symbolTuple (c : Config) (z : Cplx) : BitTuple := c.bitmap.getD (slice c z) []

/-- Phase A: the block's ratios are appended to `ERR` in tone order (R166, 43_drift_loop R181). -/
def accumulate (zs : List Cplx) (s : State) : State := { s with err := s.err ++ zs.map (symbolRatio s.cfg) }

/-- Phase B and the counters: the tuples are pushed in tone order; a push answered `error` raises Fault(4) and
the block is not counted (R165, R167, R168). -/
def pushBlock (zs : List Cplx) (s : State) : State :=
  match pushAll (zs.map (symbolTuple s.cfg)) s with
  | (.ok, s') => driftTrigger (countBlock s')
  | (.error, s') => raiseFault .unexpected s'

/-- A block made from the window `w` (R160, R166). -/
def demodBlock (w : List Real64) (s : State) : State :=
  pushBlock (blockSymbols s.cfg w) (accumulate (blockSymbols s.cfg w) s)

/-- One SYM step (R160, R161). -/
def symStep (s : State) : State :=
  match samplerTake s.cfg.nsym s with
  | (w, .ok, s') => demodBlock w s'
  | (_, .short, s') => { s' with mode := .done }
  | (_, .error, s') => raiseFault .unexpected s'

/-- `SYM` (R160). -/
def execSym (s : State) : Host.Outcome State Fault Refusal := .next (inMode .sym symStep s)

/-- The test of RUN's loop (R169), `i` SYM steps having been done. -/
def runGoesOn (n i : BitVec 24) (s : State) : Bool := s.mode == .demodulating && (n == 0 || i.ult n)

/-- After a SYM step of RUN: the count goes up, but for `n` = 0, where none is kept (44_kernels R207 (d)), and
the loop's test is made again. -/
def runAfter (n i : BitVec 24) (s : State) : State :=
  let i' := if n = 0 then 0 else i + 1
  if runGoesOn n i' s then { s with run := some ⟨n, i'⟩ } else { s with run := none }

/-- One turn of RUN's loop (R169): the test, one SYM step, the test. Each turn is a step of the model (R169,
70_reset R250, log 15). -/
def runTurn (n i : BitVec 24) (s : State) : State :=
  if runGoesOn n i s then runAfter n i (symStep s) else { s with run := none }

/-- `RUN n` (R169): the step that starts the loop makes its first SYM step. -/
def execRun (n : BitVec 24) (s : State) : Host.Outcome State Fault Refusal :=
  .next (inMode (.run n) (runTurn n 0) s)

end Sys2Proof.Machine
end

