-- ==== Sys2Proof/WellFormed.lean ====
section
/-! DEFINITION. Which commands are well-formed: the field constraints of 30_encoding R95 that do not depend on
the state. -/

namespace Sys2Proof

/-- A register number that some state implements (20_memory R72): a number of table S1, or one from 0x1000 up.
Whether `H[k]` is implemented now depends on `NCOEF_INST`, which the meaning of RDREG tests. -/
def registerNumberOk (r : BitVec 16) : Bool := r.toNat < 0x000E || 0x1000 ≤ r.toNat

/-- A cause the host may report: 1, 2 or 7 (30_encoding R95). -/
def abortCodeOk (c : BitVec 8) : Bool := c == 1 || c == 2 || c == 7

/-- The operands meet the field constraints of 30_encoding R95 (and R93 for `delta`). Every count of RUN is
legal. -/
def Instr.wellFormed : Instr → Bool
  | .rdreg r => registerNumberOk r
  | .fadj delta => Machine.isFinite delta
  | .abort c => abortCodeOk c
  | .nop => true
  | .train => true
  | .sym => true
  | .run _ => true
  | .reset => true

end Sys2Proof
end

