-- ==== Sys2Proof/Machine/HostCommands.lean ====
section
/-! DEFINITION. The host commands NOP, RDREG, FADJ, ABORT, RESET (40_host_commands R120 to R124). -/

namespace Sys2Proof.Machine

/-- `NOP` (R120): nothing, in every mode. -/
def execNop (s : State) : Host.Outcome State Fault Refusal := .next s

/-- `RDREG r` (R121): responds the register's word; an unimplemented `r` responds 0 and is then illegal. -/
def execRdreg (r : BitVec 16) (s : State) : Host.Outcome State Fault Refusal :=
  match readReg r s with
  | some v => .next (respond v s)
  | none => .next (illegalCommand (respond 0 s))

/-- What a legal FADJ does (R122). -/
def adjustFreq (delta : Real64) (s : State) : State :=
  { s with freq := numSub s.cfg s.freq delta, mode := .training }

/-- `FADJ delta` (R122). A `delta` that is not finite is illegal (30_encoding R93). -/
def execFadj (delta : Real64) (s : State) : Host.Outcome State Fault Refusal :=
  if isFinite delta then .next (inMode (.fadj delta) (adjustFreq delta) s)
  else .next (illegalCommand s)

/-- `ABORT c` (R123). A `c` that the host may not report is illegal (30_encoding R95). -/
def execAbort (c : BitVec 8) (s : State) : Host.Outcome State Fault Refusal :=
  match hostCause c with
  | some cause => .next (inMode (.abort c) (raiseFault cause) s)
  | none => .next (illegalCommand s)

/-- `RESET` (R124), in every mode. -/
def execReset (s : State) : Host.Outcome State Fault Refusal := .next (sessionReset s)

end Sys2Proof.Machine
end

