-- ==== Sys2Proof/Machine/Trainer.lean ====
section
/-! DEFINITION. The equalizer trainer, command TRAIN (41_equalizer_trainer R140 to R151). -/

namespace Sys2Proof.Machine

/-- One pull of TRAIN: a `short` answer raises Fault(5), an `error` answer Fault(4) (R150). -/
def trainPull (n : Nat) (onOk : List Real64 → State → State) (s : State) : State :=
  match samplerTake n s with
  | (xs, .ok, s') => onOk xs s'
  | (_, .short, s') => raiseFault .underrun s'
  | (_, .error, s') => raiseFault .unexpected s'

/-- Symbol window `k` of the filtered capture (R145, R146). -/
def trainWindow (c : Config) (y : List Real64) (k : Nat) : List Real64 :=
  (y.drop (c.lookahead + k * c.nsym)).take c.nsym

/-- Whether symbol `(k, t)` of the filtered capture is sliced to another value than the known one (R147, R148;
equality as numbers, log 18). -/
def trainMismatch (c : Config) (y : List Real64) (k t : Nat) : Bool :=
  let a := nearest c c.trainalpha (correlate c (trainWindow c y k) t)
  !cplxEq c (c.trainalpha.getD a cplxZero) ((c.trainsym.getD k []).getD t cplxZero)

/-- `errors`: the mismatched symbols of the training block (R148). -/
def trainErrors (c : Config) (y : List Real64) : Nat :=
  ((List.range c.eqlen).map fun k => (List.range c.ntone).countP fun t => trainMismatch c y k t).sum

/-- The gate and the install (R148, R149), with the estimate `hnew` and the mismatch count `errors`. -/
def trainGate (hnew : List Real64) (errors : Nat) (s : State) : State :=
  let counted := { s with trainerr := BitVec.ofNat 32 errors }
  if errors = 0 then { counted with h := hnew, eqValid := true, mode := .demodulating }
  else raiseFault .eqValidation counted

/-- The computation on the capture: the estimate, its trial application, the trial demodulation (R144 to R147). -/
def trainCapture (cap : List Real64) (s : State) : State :=
  let hnew := equalizeSignal s.cfg cap
  trainGate hnew (trainErrors s.cfg (firApply s.cfg hnew cap)) s

/-- What a legal TRAIN does (R140): the gap, the capture and the trailing samples are pulled before anything is
computed (R141, R142, R143). -/
def trainSession (s : State) : State :=
  trainPull s.cfg.silenceLen (fun _ s1 =>
    trainPull (s1.cfg.eqlen * s1.cfg.nsym + s1.cfg.lookahead) (fun cap s2 =>
      trainPull s2.cfg.silencePost (fun _ s3 => trainCapture cap s3) s2) s1) s

/-- `TRAIN` (R140). -/
def execTrain (s : State) : Host.Outcome State Fault Refusal := .next (inMode .train trainSession s)

end Sys2Proof.Machine
end

