-- ==== Sys2Proof/Machine/Dispatch.lean ====
section
/-! DEFINITION. The dispatch: one arm per command (30_encoding R94). -/

namespace Sys2Proof.Machine

-- The meaning of each command, in the order of the opcode map.
def exec (i : Instr) (s : State) : Host.Outcome State Fault Refusal :=
  match i with
  | .nop => Sys2Proof.Machine.execNop s
  | .rdreg r => Sys2Proof.Machine.execRdreg r s
  | .fadj delta => Sys2Proof.Machine.execFadj delta s
  | .train => Sys2Proof.Machine.execTrain s
  | .sym => Sys2Proof.Machine.execSym s
  | .run n => Sys2Proof.Machine.execRun n s
  | .abort c => Sys2Proof.Machine.execAbort c s
  | .reset => Sys2Proof.Machine.execReset s

end Sys2Proof.Machine
end

