-- ==== Sys2Proof/Decode.lean ====
section
/-! DEFINITION. Command decoding (30_encoding R90 to R101), total on any list of words, and the encoder. -/

namespace Sys2Proof

/-- Why a word selects no row of the opcode map (30_encoding R97 (a), (b)). -/
inductive Reject where
  /-- (a) The opcode is 0x03 or one of 0x09 to 0xFF. -/
  | reservedOpcode (op : BitVec 8)
  /-- (b) A must-be-zero part of `imm` is not zero. -/
  | mustBeZero (op : BitVec 8)
deriving DecidableEq, Repr, Inhabited

/-- What the decoder makes of the pending words. -/
inductive Decoded where
  /-- The first command and the words after it. -/
  | instr (i : Instr) (rest : List Word)
  /-- An illegal command, and the words after it: the illegal command's own words are consumed (R90). -/
  | illegal (why : Reject) (rest : List Word)
  /-- The first command is not there, or not all of its words are (R90). -/
  | needMore
deriving DecidableEq, Repr, Inhabited

/-- `op`, bits 31 to 24 (30_encoding R91). -/
def opField (w : Word) : BitVec 8 := w.extractLsb' 24 8

/-- `imm`, bits 23 to 0 (30_encoding R91). -/
def immField (w : Word) : BitVec 24 := w.extractLsb' 0 24

/-- The number of extension words, decided by `op` alone (30_encoding R90, R101). -/
def extensionWords (op : BitVec 8) : Nat := if op = 0x02 then 2 else 0

/-- Format Z and X: `imm` must be zero (30_encoding R91). -/
def formatZ (w : Word) (i : Instr) (rest : List Word) : Decoded :=
  if immField w = 0 then .instr i rest else .illegal (.mustBeZero (opField w)) rest

/-- The commands of one word (30_encoding R94). -/
def decodeOne (w : Word) (rest : List Word) : Decoded :=
  match opField w with
  | 0x00 => formatZ w .nop rest
  | 0x01 =>
    if (immField w).extractLsb' 16 8 = 0 then .instr (.rdreg ((immField w).extractLsb' 0 16)) rest
    else .illegal (.mustBeZero 0x01) rest
  | 0x04 => formatZ w .train rest
  | 0x05 => formatZ w .sym rest
  | 0x06 => .instr (.run (immField w)) rest
  | 0x07 =>
    if (immField w).extractLsb' 8 16 = 0 then .instr (.abort ((immField w).extractLsb' 0 8)) rest
    else .illegal (.mustBeZero 0x07) rest
  | 0x08 => formatZ w .reset rest
  | op => .illegal (.reservedOpcode op) rest

/-- Decodes the first command. The extension words of a command with `op` = 0x02 are consumed before it is
decided whether the command is legal (30_encoding R90). -/
def decode (ws : List Word) : Decoded :=
  match ws with
  | [] => .needMore
  | w :: rest =>
    if opField w = 0x02 then
      match rest with
      | ext0 :: ext1 :: rest' => formatZ w (.fadj (ext1 ++ ext0)) rest'
      | _ => .needMore
    else decodeOne w rest

/-- The words of a command (30_encoding R90 to R92, R94). -/
def encode : Instr → List Word
  | .nop => [0x00000000]
  | .rdreg r => [(0x0100 : BitVec 16) ++ r]
  | .fadj delta => [0x02000000, delta.extractLsb' 0 32, delta.extractLsb' 32 32]
  | .train => [0x04000000]
  | .sym => [0x05000000]
  | .run n => [(0x06 : BitVec 8) ++ n]
  | .abort c => [(0x070000 : BitVec 24) ++ c]
  | .reset => [0x08000000]

/-- The words of an instruction whose bits are `w`, first word least significant: as many words as the opcode of
the first asks for (30_encoding R90), every bit from `nbits` on being 0. -/
def wordsOfTable (nbits w : Nat) : List Word :=
  let v := w % 2 ^ nbits
  let first := BitVec.ofNat 32 v
  first :: (List.range (extensionWords (opField first))).map fun k => BitVec.ofNat 32 (v / 2 ^ (32 * (k + 1)))

/-- What the decoder reads from a row of spec/opcode_table.json whose bits are `w`. -/
def decodeTableWord (nbits w : Nat) : Option Instr :=
  match decode (wordsOfTable nbits w) with
  | .instr i _ => some i
  | _ => none

/-- One word from four bytes of a byte-wide transport, least significant byte first (20_memory R69, log 24). -/
def wordOfBytes (b0 b1 b2 b3 : Byte) : Word := b3 ++ b2 ++ b1 ++ b0

/-- The whole words of a byte-wide transport, and the bytes of a word not yet complete (20_memory R69). -/
def wordsOfBytes : List Byte → List Word × List Byte
  | b0 :: b1 :: b2 :: b3 :: bs =>
    let r := wordsOfBytes bs
    (wordOfBytes b0 b1 b2 b3 :: r.1, r.2)
  | bs => ([], bs)

/-- The bytes of a word on a byte-wide transport (20_memory R69). -/
def bytesOfWord (w : Word) : List Byte :=
  [w.extractLsb' 0 8, w.extractLsb' 8 8, w.extractLsb' 16 8, w.extractLsb' 24 8]

end Sys2Proof
end

