-- ==== Sys2Proof/Machine/Fetch.lean ====
section
/-! DEFINITION. Taking the next command from the command stream (20_memory R61), and the effect of a word that
selects no row of the opcode map (30_encoding R98). -/

namespace Sys2Proof.Machine

/-- What the command stream holds next. -/
inductive Fetched where
  /-- A command, and the state with its words taken. -/
  | command (i : Instr) (s : State)
  /-- An illegal command, and the state with its words taken. -/
  | illegal (why : Reject) (s : State)
  /-- Not all words of the next command have been issued. -/
  | waiting

/-- Takes the words of the first pending command (30_encoding R90, 20_memory R61). -/
def fetch (s : State) : Fetched :=
  match decode s.cmds with
  | .instr i rest => .command i { s with cmds := rest }
  | .illegal why rest => .illegal why { s with cmds := rest }
  | .needMore => .waiting

/-- The effect of an illegal word (30_encoding R98): an RDREG with nonzero `imm[23:16]` responds 0 first
(40_host_commands R121). -/
def executeIllegal (why : Reject) (s : State) : State :=
  match why with
  | .mustBeZero op => if op = 0x01 then illegalCommand (respond 0 s) else illegalCommand s
  | .reservedOpcode _ => illegalCommand s

/-- `s` with `ws` issued ahead of everything pending, and nothing before them: no RUN in progress and the reset
input not asserted. -/
def issueFirst (ws : List Word) (s : State) : State :=
  { s with cmds := ws ++ s.cmds, run := none, resetIn := false }

end Sys2Proof.Machine
end

