-- ==== Sys2Proof/Machine/Step.lean ====
section
/-! DEFINITION. One step of the block. -/

namespace Sys2Proof.Machine

/-- One step: an ill-formed configuration is refused (00_scope R10); the reset input comes before anything else
(60_exceptions R224 item 1); a RUN in progress makes its next SYM step (42_demodulator R169); else the next
command is taken and executed (20_memory R61); with none there the block waits and nothing changes
(60_exceptions R238). -/
def step (s : State) : Host.Outcome State Fault Refusal :=
  if configOk s.cfg = false then .refused .illFormedConfiguration
  else if s.resetIn then .next (resetInput s)
  else
    match s.run with
    | some r => .next (runTurn r.n r.i s)
    | none =>
      match fetch s with
      | .command i s' => exec i s'
      | .illegal why s' => .next (executeIllegal why s')
      | .waiting => .next s

/-- `s` with the instruction whose bits are `w` standing first in the command stream, so that the next step
executes it (log 14). -/
def State.withFetchWord (s : State) (nbits w : Nat) : State := issueFirst (wordsOfTable nbits w) s

end Sys2Proof.Machine
end

