-- ==== Sys2Proof/Machine/Assembler.lean ====
section
/-! DEFINITION. The assembler's text and the pseudo-instructions (30_encoding R102, R103). A line is a list of
characters; a comment starts at a semicolon. Log 25. -/

namespace Sys2Proof.Machine

/-- The blank characters between a mnemonic and its operand (log 25). -/
def isBlank (c : Char) : Bool := c == ' ' || c == '\t'

/-- The words of a line, `cur` being the word read so far, last character first. -/
def tokensFrom (cur : List Char) : List Char → List (List Char)
  | [] => if cur.isEmpty then [] else [cur.reverse]
  | c :: cs =>
    if c == ';' then (if cur.isEmpty then [] else [cur.reverse])
    else if isBlank c then (if cur.isEmpty then tokensFrom [] cs else cur.reverse :: tokensFrom [] cs)
    else tokensFrom (c :: cur) cs

/-- The value of a digit in the base, if it is one. 30_encoding R102 does not say in which case hexadecimal digits are
written: DESIGN CHOICE, in either. Log 25. -/
def digitValue (base : Nat) (c : Char) : Option Nat :=
  let d :=
    if '0' ≤ c ∧ c ≤ '9' then c.toNat - 48
    else if 'a' ≤ c ∧ c ≤ 'f' then c.toNat - 87
    else if 'A' ≤ c ∧ c ≤ 'F' then c.toNat - 55
    else base
  if d < base then some d else none

/-- Reads digits from the front: their value continued from `acc`, how many they are counted from `n`, and the
rest. -/
def digitsFrom (base acc n : Nat) : List Char → Nat × Nat × List Char
  | [] => (acc, n, [])
  | c :: cs =>
    match digitValue base c with
    | some d => digitsFrom base (acc * base + d) (n + 1) cs
    | none => (acc, n, c :: cs)

/-- A number that is the whole word: decimal, or hexadecimal after `0x`. DESIGN CHOICE: not after `0X`. Log 25. -/
def numberOf (cs : List Char) : Option Nat :=
  let r := match cs with
    | '0' :: 'x' :: ds => digitsFrom 16 0 0 ds
    | ds => digitsFrom 10 0 0 ds
  if r.2.1 ≠ 0 ∧ r.2.2 = [] then some r.1 else none

/-- A decimal number that is the whole word. -/
def decimalOf (cs : List Char) : Option Nat :=
  let r := digitsFrom 10 0 0 cs
  if r.2.1 ≠ 0 ∧ r.2.2 = [] then some r.1 else none

/-- An optional sign. -/
def signOf : List Char → Bool × List Char
  | '-' :: cs => (true, cs)
  | '+' :: cs => (false, cs)
  | cs => (false, cs)

/-- The exponent after its letter, which is the whole rest. -/
def exponentOf (cs : List Char) : Option Int :=
  let s := signOf cs
  (decimalOf s.2).map fun e => if s.1 then -(e : Int) else e

/-- Digits with an optional point, then an optional exponent after one of the two `letters`: the value of all
digits, how many stand after the point, and the exponent. 30_encoding R102 does not spell a literal out: DESIGN
CHOICE, the digits on one side of the point may be missing, the point too, and the exponent, of a hexadecimal-float
literal as well. Log 25. -/
def literalOf (base : Nat) (letters : Char × Char) (cs : List Char) : Option (Nat × Nat × Int) :=
  let whole := digitsFrom base 0 0 cs
  let frac := match whole.2.2 with
    | '.' :: ds => digitsFrom base whole.1 0 ds
    | ds => (whole.1, 0, ds)
  if whole.2.1 + frac.2.1 = 0 then none
  else
    match frac.2.2 with
    | [] => some (frac.1, frac.2.1, 0)
    | c :: es =>
      if c = letters.1 ∨ c = letters.2 then (exponentOf es).map fun e => (frac.1, frac.2.1, e) else none

/-- A real literal, decimal or hexadecimal-float, rounded to nearest even (30_encoding R102). DESIGN CHOICE: a
hexadecimal-float literal begins with `0x`, not `0X`. Log 25. -/
def realOfText (cs : List Char) : Option Real64 :=
  let s := signOf cs
  match s.2 with
  | '0' :: 'x' :: ds =>
    (literalOf 16 ('p', 'P') ds).map fun v => realOfBinary s.1 v.1 (v.2.2 - 4 * (v.2.1 : Int))
  | ds => (literalOf 10 ('e', 'E') ds).map fun v => realOfDecimal s.1 v.1 (v.2.2 - (v.2.1 : Int))

/-- The register names of 10_state table S1. -/
def registerNames : List (List Char × Nat) :=
  [("ID".toList, 0x0), ("MODE".toList, 0x1), ("STATUS".toList, 0x2), ("CAUSE".toList, 0x3),
   ("FREQ".toList, 0x4), ("OFFSET".toList, 0x5), ("SYMCNT".toList, 0x6), ("ERRN".toList, 0x7),
   ("BLKTOT".toList, 0x8), ("BITCNT".toList, 0x9), ("NCORR".toList, 0xA), ("LASTERR".toList, 0xB),
   ("NCOEF_INST".toList, 0xC), ("TRAINERR".toList, 0xD)]

/-- A register operand: a name of table S1, `H[k]`, or a number (30_encoding R102). R102 does not say in which base
`k` is written: DESIGN CHOICE, decimal only, so that `H[0x2]` is no operand. Log 25. -/
def registerOf (cs : List Char) : Option Nat :=
  match registerNames.lookup cs with
  | some n => some n
  | none =>
    match cs with
    | 'H' :: '[' :: ds =>
      let r := digitsFrom 10 0 0 ds
      if r.2.1 ≠ 0 ∧ r.2.2 = [']'] then some (0x1000 + r.1) else none
    | ds => numberOf ds

/-- A cause operand: a decimal code or one of three names (30_encoding R102). -/
def causeOf (cs : List Char) : Option Nat :=
  if cs = "NO_CARRIER".toList then some 1
  else if cs = "BAD_PREFIX".toList then some 2
  else if cs = "HOST".toList then some 7
  else decimalOf cs

/-- An operand that must fit its field of `w` bits. -/
def fits (w : Nat) (n : Option Nat) : Option (BitVec w) :=
  n.bind fun v => if v < 2 ^ w then some (BitVec.ofNat w v) else none

/-- The command with no operand of this name, the pseudo-instructions among them (30_encoding R103). -/
def plainCommand (name : List Char) : Option Instr :=
  [("NOP".toList, Instr.nop), ("TRAIN".toList, .train), ("SYM".toList, .sym), ("RESET".toList, .reset),
   ("RUNALL".toList, .run 0), ("FADJ0".toList, .fadj 0), ("FAIL.NOCARRIER".toList, .abort 1),
   ("FAIL.PREFIX".toList, .abort 2), ("RDFREQ".toList, .rdreg 0x0004), ("RDOFFSET".toList, .rdreg 0x0005),
   ("RDMODE".toList, .rdreg 0x0001)].lookup name

/-- The command with one operand of this name (30_encoding R102). -/
def operandCommand (name operand : List Char) : Option Instr :=
  if name = "RDREG".toList then (fits 16 (registerOf operand)).map .rdreg
  else if name = "FADJ".toList then (realOfText operand).map .fadj
  else if name = "RUN".toList then (fits 24 (decimalOf operand)).map .run
  else if name = "ABORT".toList then (fits 8 (causeOf operand)).map .abort
  else none

/-- Assembles one line (30_encoding R102). -/
def assembleLine (line : List Char) : Option Instr :=
  match tokensFrom [] line with
  | [name] => plainCommand name
  | [name, operand] => operandCommand name operand
  | _ => none

end Sys2Proof.Machine
end

