-- ==== Sys2Proof/Safety.lean ====
section
/-! DEFINITION. What a claim may observe (00_scope R7), what the outside world may do between two steps (00_scope
R6), which states a session reaches, and the invariants of the state (10_state, 60_exceptions, 70_reset). -/

namespace Sys2Proof.Machine

/-- What a claim about the block may observe (00_scope R7). -/
structure Observation where
  out : List BitTuple
  mode : Mode
  cause : Cause
  freq : Real64
  offset : Real64
  h : List Real64
  blktot : Word64
  bitcnt : Word64
  ncorr : Word64
  lasterr : Real64
  trainerr : BitVec 32
  symcnt : BitVec 32
  errn : Nat
  pulled : Nat
deriving DecidableEq, Repr

/-- The observation of a state. -/
def observe (s : State) : Observation where
  out := s.out
  mode := s.mode
  cause := s.cause
  freq := s.freq
  offset := s.offset
  h := s.h
  blktot := s.blktot
  bitcnt := s.bitcnt
  ncorr := s.ncorr
  lasterr := s.lasterr
  trainerr := s.trainerr
  symcnt := s.symcnt
  errn := s.err.length
  pulled := s.pulled

/-- What the agents outside the block may do between two steps. None of them writes a register (10_state R37). -/
inductive EnvEvent where
  /-- The host issues command words (20_memory R60 (1)). -/
  | issue (ws : List Word)
  /-- The host takes the first `n` responses (20_memory R66). -/
  | takeResponses (n : Nat)
  /-- The platform asserts the reset input (70_reset R250). -/
  | assertReset
  /-- The Sampler chooses its next answers, or the platform attaches another Sampler (70_reset R253). -/
  | sampler (answers : List PullAnswer) (hidden : Nat)
  /-- The sink chooses its next answers, or the platform attaches another sink (70_reset R253). -/
  | sink (answers : List PushAnswer) (hidden : Nat)
deriving DecidableEq, Repr

/-- The state after an event of the outside world. -/
def EnvEvent.apply (e : EnvEvent) (s : State) : State :=
  match e with
  | .issue ws => { s with cmds := s.cmds ++ ws }
  | .takeResponses n => { s with resp := s.resp.drop n }
  | .assertReset => { s with resetIn := true }
  | .sampler answers hidden => { s with samplerIn := answers, samplerState := hidden }
  | .sink answers hidden => { s with sinkIn := answers, sinkState := hidden }

/-- The states that steps of the block and events of the outside world reach from a fresh block. -/
inductive Reachable : State → Prop where
  | fresh (c : Config) (h : configOk c = true) : Reachable (State.fresh c)
  | step {s t : State} (hs : Reachable s) (h : Sys2Proof.Machine.step s = .next t) : Reachable t
  | env {s : State} (e : EnvEvent) (hs : Reachable s) : Reachable (e.apply s)

/-- How the mode, the cause, the flags, the filter and the RUN in progress hang together. -/
structure ModeInv (s : State) : Prop where
  /-- `CAUSE` is 0 outside FAILED, and in FAILED it is not (10_state R27, 60_exceptions R226). -/
  cause_failed : s.cause = .none ↔ s.mode ≠ .failed
  /-- `H` is empty without `EQVALID` and holds `NCOEF` coefficients with it (10_state R32). -/
  filter_length : s.h.length = if s.eqValid then s.cfg.ncoef else 0
  /-- No filter before training has succeeded (10_state R26). -/
  eq_before : s.mode = .pre ∨ s.mode = .training → s.eqValid = false
  /-- A filter once it has (41_equalizer_trainer R149). -/
  eq_after : s.mode = .demodulating ∨ s.mode = .done → s.eqValid = true
  /-- A pull answered `short` ends the session (42_demodulator R161, 41_equalizer_trainer R150). -/
  exhausted_ends : s.exhausted = true → s.mode = .done ∨ s.mode = .failed
  /-- DONE is entered by exhaustion only (60_exceptions R229). -/
  done_exhausted : s.mode = .done → s.exhausted = true
  /-- Cause 5 leaves `EXHAUSTED` (60_exceptions R221). -/
  underrun_exhausted : s.cause = .underrun → s.exhausted = true
  /-- Cause 3, and no other, leaves a mismatch count (60_exceptions R221). -/
  mismatch_cause : s.cause = .eqValidation ↔ s.trainerr ≠ 0
  /-- A RUN in progress is in DEMODULATING and has turns left (42_demodulator R169). -/
  run_turns : ∀ r, s.run = some r →
    s.mode = .demodulating ∧ ((r.n = 0 ∧ r.i = 0) ∨ (0 < r.i.toNat ∧ r.i.toNat < r.n.toNat))
  /-- In PRE the block has pulled nothing (70_reset R256). -/
  pre_pulls_nothing : s.mode = .pre → s.pulled = 0

/-- How the counters, the accumulator and the emitted tuples hang together. -/
structure CountInv (s : State) : Prop where
  /-- `SYMCNT` is 0 to `baud` − 1 between commands (10_state R30). -/
  symcnt_below : s.symcnt.toNat < s.cfg.baud
  /-- Before DEMODULATING nothing has been counted. -/
  idle_before : s.mode = .pre ∨ s.mode = .training →
    s.symcnt = 0 ∧ s.err = [] ∧ s.out = [] ∧ s.blktot = 0 ∧ s.ncorr = 0 ∧ s.bitcnt = 0 ∧ s.lasterr = 0
  /-- Between corrections `ERR` holds `SYMCNT × NTONE` ratios (43_drift_loop R181). -/
  ratios : s.mode ≠ .failed → s.err.length = s.symcnt.toNat * s.cfg.ntone
  /-- In FAILED it may hold those of one more block (60_exceptions R225). -/
  ratios_failed : s.mode = .failed → s.err.length = s.symcnt.toNat * s.cfg.ntone ∨
    s.err.length = (s.symcnt.toNat + 1) * s.cfg.ntone
  /-- `BITCNT` is `BPS` for each tuple pushed, modulo 2^64 (20_memory R64). -/
  bits : s.bitcnt = BitVec.ofNat 64 (s.out.length * s.cfg.bps)
  /-- Every tuple pushed has `BPS` bits (20_memory R64). -/
  tuple_bits : ∀ t ∈ s.out, t.length = s.cfg.bps
  /-- Outside FAILED `OUT` holds `BLKTOT × NTONE` tuples, modulo 2^64 (70_reset R264). -/
  tuples : s.mode ≠ .failed → BitVec.ofNat 64 s.out.length = s.blktot * BitVec.ofNat 64 s.cfg.ntone
  /-- In FAILED it may hold up to `NTONE` − 1 more (70_reset R264, 60_exceptions R225). -/
  tuples_failed : s.mode = .failed → ∃ j, j < s.cfg.ntone ∧
    BitVec.ofNat 64 s.out.length = s.blktot * BitVec.ofNat 64 s.cfg.ntone + BitVec.ofNat 64 j
  /-- `BLKTOT` is `baud` for each correction and `SYMCNT` more, modulo 2^64 (43_drift_loop R183). -/
  intervals : s.blktot = s.ncorr * BitVec.ofNat 64 s.cfg.baud + s.symcnt.setWidth 64

/-- The invariant of the block between commands and between the SYM steps of a RUN. -/
structure BlockInv (s : State) : Prop where
  config : configOk s.cfg = true
  modes : ModeInv s
  counts : CountInv s

/-- Everything of the session: all but the pending words, the responses and the outside world's choices, which
are `s`'s. -/
def sessionOf (s t : State) : State :=
  { t with
    cmds := s.cmds, resp := s.resp, resetIn := s.resetIn, samplerIn := s.samplerIn,
    samplerState := s.samplerState, sinkIn := s.sinkIn, sinkState := s.sinkState }

/-- `t` differs from `s` at most in the pending words, the responses and the outside world's choices: no register,
no history, no RUN in progress has changed. -/
def SameSession (s t : State) : Prop := sessionOf s t = s

/-- The next step resets the session: the reset input is asserted, or RESET is the next command and no RUN is in
progress (70_reset R250, 40_host_commands R124). -/
def ResetsNext (s : State) : Prop :=
  s.resetIn = true ∨ (s.run = none ∧ ∃ rest, decode s.cmds = .instr .reset rest)

/-- A state with its telemetry and its response stream blanked (10_state R33, 43_drift_loop R188). -/
def withoutTelemetry (s : State) : State :=
  { s with blktot := 0, bitcnt := 0, ncorr := 0, lasterr := 0, trainerr := 0, resp := [] }

end Sys2Proof.Machine
end

