-- ==== Sys2Proof/Certificates/Slice0/Obligations.lean ====
section
/-! DEFINITION. The statements for the provers. Each docstring names the rule of spec/ it formalises; a clause that
rests on a choice of the model's names its log entry. -/

open Sys2Proof Sys2Proof.Machine

/-! ## Encoding (30_encoding) -/

/-- Decoding what the encoder writes gives the command back, whatever words follow (R90 to R94, R101). -/
def Obligations.DecodeOfEncode : Prop :=
  ∀ (i : Instr) (rest : List Word), decode (encode i ++ rest) = .instr i rest

/-- The decoder reads a command from its own encoding only: no bit of a command word is dropped (R91 to R94). -/
def Obligations.EncodeOfDecode : Prop :=
  ∀ (ws : List Word) (i : Instr) (rest : List Word), decode ws = .instr i rest → ws = encode i ++ rest

/-- R90, R101: the length is decided by bits 31 to 24 alone. 0x02 takes two more words before it is decided
whether the command is legal; every other value takes none. That a command whose words are not all there is waited
for is the model's choice (log 12). -/
def Obligations.LengthIsDecidedByOpcode : Prop :=
  (∀ (w ext0 ext1 : Word) (rest : List Word), opField w = 0x02 →
    (immField w = 0 → decode (w :: ext0 :: ext1 :: rest) = .instr (.fadj (ext1 ++ ext0)) rest) ∧
    (immField w ≠ 0 → decode (w :: ext0 :: ext1 :: rest) = .illegal (.mustBeZero 0x02) rest)) ∧
  (∀ (w : Word) (rest : List Word), opField w ≠ 0x02 →
    (∃ i, decode (w :: rest) = .instr i rest) ∨ (∃ why, decode (w :: rest) = .illegal why rest)) ∧
  (∀ (w ext0 : Word), opField w = 0x02 → decode [w] = .needMore ∧ decode [w, ext0] = .needMore) ∧
  decode [] = .needMore

/-- R97 (a) and (b): a one-word command word is illegal at the decoder exactly when its opcode is reserved (0x03,
0x09 to 0xFF) or a must-be-zero part of `imm` is not zero. The reason it then gives is must-be-zero of opcode 0x01,
the one on which a response depends (R98), exactly where the opcode is 0x01: for every word of that opcode with
imm[23:16] not zero, and for no word of another opcode, a three-word command's among them. -/
def Obligations.DecoderRejectsExactly : Prop :=
  (∀ (w : Word) (rest : List Word), opField w ≠ 0x02 →
    ((∃ why, decode (w :: rest) = .illegal why rest) ↔
      opField w = 0x03 ∨ 0x09 ≤ (opField w).toNat ∨
      ((opField w = 0x00 ∨ opField w = 0x04 ∨ opField w = 0x05 ∨ opField w = 0x08) ∧ immField w ≠ 0) ∨
      (opField w = 0x01 ∧ (immField w).toNat / 2 ^ 16 ≠ 0) ∨
      (opField w = 0x07 ∧ (immField w).toNat / 2 ^ 8 ≠ 0))) ∧
  (∀ (w : Word) (rest : List Word), opField w = 0x01 → (immField w).toNat / 2 ^ 16 ≠ 0 →
    decode (w :: rest) = .illegal (.mustBeZero 0x01) rest) ∧
  (∀ (w : Word) (tail : List Word) (why : Reject) (rest : List Word),
    decode (w :: tail) = .illegal why rest → (why = .mustBeZero 0x01 ↔ opField w = 0x01))

/-- R104: the worked encodings, and its five illegal examples (three that select no row, two whose operand is
not legal). -/
def Obligations.WorkedEncodings : Prop :=
  decode [0x00000000] = .instr .nop [] ∧
  decode [0x01000004] = .instr (.rdreg 0x0004) [] ∧
  decode [0x01001002] = .instr (.rdreg 0x1002) [] ∧
  decode [0x02000000, 0x00000000, 0x00000000] = .instr (.fadj 0) [] ∧
  decode [0x02000000, 0xEB1C432D, 0x3EFA36E2] = .instr (.fadj 0x3EFA36E2EB1C432D) [] ∧
  realOfDecimal false 25 (-6) = 0x3EFA36E2EB1C432D ∧
  decode [0x04000000] = .instr .train [] ∧
  decode [0x05000000] = .instr .sym [] ∧
  decode [0x06000000] = .instr (.run 0) [] ∧
  decode [0x06000064] = .instr (.run 100) [] ∧
  decode [0x07000001] = .instr (.abort 1) [] ∧
  decode [0x07000002] = .instr (.abort 2) [] ∧
  decode [0x07000007] = .instr (.abort 7) [] ∧
  decode [0x08000000] = .instr .reset [] ∧
  decode [0x03000000] = .illegal (.reservedOpcode 0x03) [] ∧
  decode [0x04000001] = .illegal (.mustBeZero 0x04) [] ∧
  decode [0x01010004] = .illegal (.mustBeZero 0x01) [] ∧
  decode [0x07000003] = .instr (.abort 3) [] ∧ (Instr.abort 3).wellFormed = false ∧
  decode [0x01000020] = .instr (.rdreg 0x20) [] ∧ (Instr.rdreg 0x20).wellFormed = false

/-- R103: each pseudo-instruction assembles to its expansion. -/
def Obligations.PseudoInstructionsExpand : Prop :=
  assembleLine "RUNALL".toList = assembleLine "RUN 0".toList ∧
  assembleLine "RUNALL".toList = some (.run 0) ∧
  assembleLine "FADJ0".toList = assembleLine "FADJ 0.0".toList ∧
  assembleLine "FADJ0".toList = some (.fadj 0) ∧
  assembleLine "FAIL.NOCARRIER".toList = assembleLine "ABORT 1".toList ∧
  assembleLine "FAIL.NOCARRIER".toList = some (.abort 1) ∧
  assembleLine "FAIL.PREFIX".toList = assembleLine "ABORT 2".toList ∧
  assembleLine "FAIL.PREFIX".toList = some (.abort 2) ∧
  assembleLine "RDFREQ".toList = assembleLine "RDREG 0x0004".toList ∧
  assembleLine "RDFREQ".toList = some (.rdreg 4) ∧
  assembleLine "RDOFFSET".toList = assembleLine "RDREG 0x0005".toList ∧
  assembleLine "RDOFFSET".toList = some (.rdreg 5) ∧
  assembleLine "RDMODE".toList = assembleLine "RDREG 0x0001".toList ∧
  assembleLine "RDMODE".toList = some (.rdreg 1)

/-- 20_memory R69: over a byte-wide transport the words come back from their bytes, least significant byte first.
That the bytes of a word not yet complete are kept, the second part of the first clause, is the model's reading and
not R69's words (log 24, DEDUCED). -/
def Obligations.ByteTransportKeepsWords : Prop :=
  (∀ (ws : List Word) (tail : List Byte), tail.length < 4 →
    wordsOfBytes (ws.flatMap bytesOfWord ++ tail) = (ws, tail)) ∧
  (∀ w : Word, (bytesOfWord w).map BitVec.toNat =
    [w.toNat % 256, w.toNat / 256 % 256, w.toNat / 65536 % 256, w.toNat / 16777216])

/-! ## The step -/

/-- 20_memory R61: when no RUN is in progress and the reset input is not asserted, a step takes the first
pending command's words and is that command's execution on the state without them. -/
def Obligations.StepRunsDecodedCommand : Prop :=
  ∀ (s : State) (i : Instr) (rest : List Word),
    configOk s.cfg = true → s.resetIn = false → s.run = none → decode s.cmds = .instr i rest →
    step s = exec i { s with cmds := rest }

/-- What `withFetchWord` stores runs next (log 14): the decoded instruction, on `s` with no RUN in progress and
the reset input not asserted. -/
def Obligations.FetchWordRunsNext : Prop :=
  ∀ (s : State) (nbits w : Nat) (i : Instr),
    configOk s.cfg = true → decodeTableWord nbits w = some i →
    step (s.withFetchWord nbits w) = exec i { s with run := none, resetIn := false }

/-- 30_encoding R98: a word that selects no row gives Fault(6) in PRE, TRAINING and DEMODULATING, and nothing in
DONE and FAILED; the word is consumed, and only an illegal RDREG (opcode 0x01) responds, with 0. -/
def Obligations.IllegalWordFaultsOrIsIgnored : Prop :=
  ∀ (s : State) (why : Reject) (rest : List Word),
    configOk s.cfg = true → s.resetIn = false → s.run = none → decode s.cmds = .illegal why rest →
    let resp := if why = .mustBeZero 0x01 then s.resp ++ [0] else s.resp
    (s.mode.terminal = true → step s = .next { s with cmds := rest, resp := resp }) ∧
    (s.mode.terminal = false →
      step s = .next { s with cmds := rest, resp := resp, mode := .failed, cause := .illegalCommand })

/-- 60_exceptions R238: with no whole command issued the block waits and loses no state. That waiting is a step to
the same state is the model's choice (log 12). -/
def Obligations.WaitingChangesNothing : Prop :=
  ∀ s : State, configOk s.cfg = true → s.resetIn = false → s.run = none → decode s.cmds = .needMore →
    step s = .next s

/-- 70_reset R250, R251: the reset input is taken before the next command or SYM step, whatever is in progress;
every register takes its reset value, `H`, `ERR`, `OUT` and `PULLED` start again, the words not yet executed are
discarded, no RUN resumes; the configuration and the responses made stay. That one assertion is taken once is
the model's choice (log 13). -/
def Obligations.ResetInputStartsSession : Prop :=
  ∀ s : State, configOk s.cfg = true → s.resetIn = true →
    step s = .next { s with
      mode := .pre, eqValid := false, exhausted := false, cause := .none, freq := 0x3FF0000000000000,
      offset := 0, symcnt := 0, err := [], blktot := 0, bitcnt := 0, ncorr := 0, lasterr := 0, h := [],
      trainerr := 0, out := [], pulled := 0, run := none, cmds := [], resetIn := false }

/-- 00_scope R10, 70_reset R254: a configuration that is not well-formed is refused, whatever else holds. What
`configOk` refuses beyond the words of R10 is the model's choice: other sizes of the lists and tables and a `DFREQ` that
is no sub-list (log 17), entries of `DFREQ` compared as encodings (log 32), an entry of `frequencies[]` or `DFREQ` that
is not finite (log 33); so is that symbols are compared as numbers (log 18). -/
def Obligations.IllFormedConfigurationIsRefused : Prop :=
  ∀ s : State, configOk s.cfg = false → step s = .refused .illFormedConfiguration

/-! ## Host commands (40_host_commands) -/

/-- R120: NOP is legal in every mode and changes nothing. -/
def Obligations.NopChangesNothing : Prop :=
  ∀ s : State, exec .nop s = .next s

/-- 10_state R22, R23, 20_memory R72: what each register number reads. 0x0000 to 0x000D are table S1, 0x1000 + k
is `H[k]`, every other number is unimplemented. -/
def Obligations.RegisterSpace : Prop :=
  ∀ s : State,
    readReg 0x0000 s = some 0x0000000000430001 ∧
    readReg 0x0001 s = some (match s.mode with
      | .pre => 0 | .training => 1 | .demodulating => 2 | .done => 3 | .failed => 4) ∧
    readReg 0x0002 s = some (BitVec.ofNat 64 (s.eqValid.toNat + 2 * s.exhausted.toNat)) ∧
    readReg 0x0003 s = some (match s.cause with
      | .none => 0 | .noCarrier => 1 | .badPrefix => 2 | .eqValidation => 3 | .unexpected => 4
      | .underrun => 5 | .illegalCommand => 6 | .host => 7) ∧
    readReg 0x0004 s = some s.freq ∧ readReg 0x0005 s = some s.offset ∧
    readReg 0x0006 s = some (BitVec.ofNat 64 s.symcnt.toNat) ∧
    (s.err.length < 2 ^ 32 → readReg 0x0007 s = some (BitVec.ofNat 64 s.err.length)) ∧
    readReg 0x0008 s = some s.blktot ∧ readReg 0x0009 s = some s.bitcnt ∧ readReg 0x000A s = some s.ncorr ∧
    readReg 0x000B s = some s.lasterr ∧
    (s.h.length < 2 ^ 32 → readReg 0x000C s = some (BitVec.ofNat 64 s.h.length)) ∧
    readReg 0x000D s = some (BitVec.ofNat 64 s.trainerr.toNat) ∧
    (∀ r : BitVec 16, 0x000D < r.toNat → r.toNat < 0x1000 → readReg r s = none) ∧
    (∀ (r : BitVec 16) (k : Nat), r.toNat = 0x1000 + k → readReg r s = s.h[k]?)

/-- R121: RDREG responds exactly one word in every mode: the register's, or 0 for an unimplemented number, which
is then illegal (Fault(6) outside DONE and FAILED). Nothing else changes. -/
def Obligations.RdregResponds : Prop :=
  ∀ (r : BitVec 16) (s : State),
    (∀ v, readReg r s = some v → exec (.rdreg r) s = .next { s with resp := s.resp ++ [v] }) ∧
    (readReg r s = none → s.mode.terminal = true →
      exec (.rdreg r) s = .next { s with resp := s.resp ++ [0] }) ∧
    (readReg r s = none → s.mode.terminal = false →
      exec (.rdreg r) s = .next { s with
        resp := s.resp ++ [0], mode := .failed, cause := .illegalCommand, run := none })

/-- R122: a FADJ with a finite operand, in PRE, subtracts it from FREQ, in the arithmetic of the configuration's
`Num`, and moves to TRAINING; nothing else changes. -/
def Obligations.FadjCorrectsFreq : Prop :=
  ∀ (delta : Real64) (s : State), s.mode = .pre → isFinite delta = true →
    exec (.fadj delta) s = .next { s with freq := numSub s.cfg s.freq delta, mode := .training }

/-- 30_encoding R93: a FADJ whose operand is a NaN or an infinity is illegal: Fault(6) outside DONE and FAILED,
ignored in them (R98, R99); FREQ is unchanged. -/
def Obligations.FadjOfNonFiniteIsIllegal : Prop :=
  ∀ (delta : Real64) (s : State), isFinite delta = false →
    (s.mode.terminal = false → exec (.fadj delta) s =
      .next { s with mode := .failed, cause := .illegalCommand, run := none }) ∧
    (s.mode.terminal = true → exec (.fadj delta) s = .next s)

/-- R123, 60_exceptions R226: ABORT 1, 2 and 7 enter FAILED with that cause from PRE, TRAINING and DEMODULATING;
nothing but MODE, CAUSE and a RUN in progress changes. -/
def Obligations.AbortEntersFailed : Prop :=
  ∀ s : State, s.mode.terminal = false →
    exec (.abort 1) s = .next { s with mode := .failed, cause := .noCarrier, run := none } ∧
    exec (.abort 2) s = .next { s with mode := .failed, cause := .badPrefix, run := none } ∧
    exec (.abort 7) s = .next { s with mode := .failed, cause := .host, run := none }

/-- 30_encoding R95, R98: any other code makes ABORT illegal: Fault(6) outside DONE and FAILED. -/
def Obligations.AbortOfOtherCodeIsIllegal : Prop :=
  ∀ (c : BitVec 8) (s : State), c ≠ 1 → c ≠ 2 → c ≠ 7 → s.mode.terminal = false →
    exec (.abort c) s = .next { s with mode := .failed, cause := .illegalCommand, run := none }

/-- R124, 70_reset R251: RESET, in every mode, gives every register its reset value and starts `H`, `ERR`, `OUT`
and `PULLED` again; the words issued after it, the responses made and the configuration stay. -/
def Obligations.ResetStartsSession : Prop :=
  ∀ s : State, exec .reset s = .next { s with
    mode := .pre, eqValid := false, exhausted := false, cause := .none, freq := 0x3FF0000000000000,
    offset := 0, symcnt := 0, err := [], blktot := 0, bitcnt := 0, ncorr := 0, lasterr := 0, h := [],
    trainerr := 0, out := [], pulled := 0, run := none }

/-- 30_encoding R99: in DONE and FAILED every command but NOP, RDREG and RESET is ignored, legal or not: nothing
changes but that its words are taken from the command stream. A word that selects no row is ignored too, but that
an illegal RDREG responds (R98). -/
def Obligations.TerminalModesIgnore : Prop :=
  (∀ (i : Instr) (s : State), s.mode.terminal = true → i ≠ .nop → (∀ r, i ≠ .rdreg r) → i ≠ .reset →
    exec i s = .next s) ∧
  (∀ (s : State) (why : Reject) (rest : List Word), s.mode.terminal = true → configOk s.cfg = true →
    s.resetIn = false → s.run = none → decode s.cmds = .illegal why rest → why ≠ .mustBeZero 0x01 →
    step s = .next { s with cmds := rest })

/-- 30_encoding R100, R98: a command in a mode its row marks `ill` gives Fault(6) and nothing else: FADJ outside
PRE, TRAIN outside TRAINING, SYM and RUN outside DEMODULATING, the terminal modes apart. -/
def Obligations.OutOfOrderCommandFaults : Prop :=
  ∀ (i : Instr) (s : State), s.mode.terminal = false →
    (∃ delta, i = .fadj delta ∧ s.mode ≠ .pre) ∨ (i = .train ∧ s.mode ≠ .training) ∨
      (i = .sym ∧ s.mode ≠ .demodulating) ∨ (∃ n, i = .run n ∧ s.mode ≠ .demodulating) →
    exec i s = .next { s with mode := .failed, cause := .illegalCommand, run := none }

/-! ## The ports (20_memory) -/

/-- R62: the Sampler's answer `a` to a pull of `n` samples. The first `n` samples of it are delivered and counted;
`ok` exactly when all `n` came and every one is finite and no failure is reported; `error` for a failure or a
sample that is not finite, even if the pull runs short (60_exceptions R224); else `short`, which sets
EXHAUSTED. Nothing else changes. (The form of `a` is the model's, log 10.) -/
def Obligations.PullStatusAndCount : Prop :=
  ∀ (n : Nat) (a : PullAnswer) (as : List PullAnswer) (s : State),
    0 < n → s.exhausted = false → s.samplerIn = a :: as →
    let xs := a.samples.take n
    let s' := { s with samplerIn := as, pulled := s.pulled + xs.length }
    ((a.failed = true ∨ ∃ x ∈ xs, isFinite x = false) → samplerTake n s = (xs, .error, s')) ∧
    (a.failed = false → (∀ x ∈ xs, isFinite x = true) → xs.length < n →
      samplerTake n s = (xs, .short, { s' with exhausted := true })) ∧
    (a.failed = false → (∀ x ∈ xs, isFinite x = true) → xs.length = n → samplerTake n s = (xs, .ok, s'))

/-- R62, R63: a pull of no samples is `ok` without asking the Sampler; once EXHAUSTED is set every pull of one or
more is `short` with no samples, without asking the Sampler. -/
def Obligations.ExhaustionIsSticky : Prop :=
  ∀ s : State,
    samplerTake 0 s = ([], .ok, s) ∧
    (s.exhausted = true → ∀ n, 0 < n → samplerTake n s = ([], .short, s))

/-- R63, 10_state R26: once set, EXHAUSTED stays set at every step that does not reset the session. -/
def Obligations.ExhaustedStaysUntilReset : Prop :=
  ∀ s t : State, step s = .next t → ¬ ResetsNext s → s.exhausted = true → t.exhausted = true

/-- R64, 42_demodulator R165, 60_exceptions R224 item 5: with a sink that accepts `j` pushes and then answers
`error`, exactly the first `j` tuples are appended to OUT, in order, `BPS` counted for each, and the later ones
are not offered; with a sink that accepts them all, all are. -/
def Obligations.PushesStopAtFirstError : Prop :=
  ∀ (ts : List BitTuple) (j : Nat) (as : List PushAnswer) (s : State),
    (j < ts.length → s.sinkIn = List.replicate j .ok ++ .error :: as →
      pushAll ts s = (.error, { s with
        out := s.out ++ ts.take j, bitcnt := s.bitcnt + BitVec.ofNat 64 (j * s.cfg.bps), sinkIn := as })) ∧
    (s.sinkIn = List.replicate ts.length .ok ++ as →
      pushAll ts s = (.ok, { s with
        out := s.out ++ ts, bitcnt := s.bitcnt + BitVec.ofNat 64 (ts.length * s.cfg.bps), sinkIn := as }))

/-! ## TRAIN (41_equalizer_trainer) -/

/-- R140, R149: in TRAINING, when the three pulls are answered `ok` and the trial demodulation finds no
mismatch, TRAIN completes: the estimate is installed, EQVALID set, MODE is DEMODULATING, TRAINERR is 0, the
three pulls are counted; every other register, history and stream but the Sampler's is unchanged. -/
def Obligations.TrainInstallsFilter : Prop :=
  ∀ (s s1 s2 s3 : State) (gap cap post : List Real64), s.mode = .training →
    samplerTake s.cfg.silenceLen s = (gap, .ok, s1) →
    samplerTake (s.cfg.eqlen * s.cfg.nsym + s.cfg.lookahead) s1 = (cap, .ok, s2) →
    samplerTake s.cfg.silencePost s2 = (post, .ok, s3) →
    trainErrors s.cfg (firApply s.cfg (equalizeSignal s.cfg cap) cap) = 0 →
    exec .train s = .next { s with
      h := equalizeSignal s.cfg cap, eqValid := true, mode := .demodulating, trainerr := 0,
      pulled := s.pulled + s.cfg.silenceLen + (s.cfg.eqlen * s.cfg.nsym + s.cfg.lookahead) + s.cfg.silencePost,
      samplerIn := s3.samplerIn, samplerState := s3.samplerState }

/-- R148: when the trial demodulation finds mismatches, their count goes to TRAINERR and Fault(3) is taken; H,
EQVALID and NCOEF_INST are unchanged, and so is all else but the samples pulled. -/
def Obligations.TrainGateFails : Prop :=
  ∀ (s s1 s2 s3 : State) (gap cap post : List Real64), s.mode = .training →
    samplerTake s.cfg.silenceLen s = (gap, .ok, s1) →
    samplerTake (s.cfg.eqlen * s.cfg.nsym + s.cfg.lookahead) s1 = (cap, .ok, s2) →
    samplerTake s.cfg.silencePost s2 = (post, .ok, s3) →
    trainErrors s.cfg (firApply s.cfg (equalizeSignal s.cfg cap) cap) ≠ 0 →
    exec .train s = .next { s with
      mode := .failed, cause := .eqValidation, run := none,
      trainerr := BitVec.ofNat 32 (trainErrors s.cfg (firApply s.cfg (equalizeSignal s.cfg cap) cap)),
      pulled := s.pulled + s.cfg.silenceLen + (s.cfg.eqlen * s.cfg.nsym + s.cfg.lookahead) + s.cfg.silencePost,
      samplerIn := s3.samplerIn, samplerState := s3.samplerState }

/-- R150, 60_exceptions R224 item 4, R225: the first pull of TRAIN that is not answered `ok` ends it: `short`
gives Fault(5), `error` Fault(4); nothing is installed and no later pull is made. -/
def Obligations.TrainPullFails : Prop :=
  ∀ (s s1 s2 s3 : State) (gap cap post : List Real64), s.mode = .training →
    (samplerTake s.cfg.silenceLen s = (gap, .short, s1) →
      exec .train s = .next { s1 with mode := .failed, cause := .underrun, run := none }) ∧
    (samplerTake s.cfg.silenceLen s = (gap, .error, s1) →
      exec .train s = .next { s1 with mode := .failed, cause := .unexpected, run := none }) ∧
    (samplerTake s.cfg.silenceLen s = (gap, .ok, s1) →
      samplerTake (s.cfg.eqlen * s.cfg.nsym + s.cfg.lookahead) s1 = (cap, .short, s2) →
      exec .train s = .next { s2 with mode := .failed, cause := .underrun, run := none }) ∧
    (samplerTake s.cfg.silenceLen s = (gap, .ok, s1) →
      samplerTake (s.cfg.eqlen * s.cfg.nsym + s.cfg.lookahead) s1 = (cap, .error, s2) →
      exec .train s = .next { s2 with mode := .failed, cause := .unexpected, run := none }) ∧
    (samplerTake s.cfg.silenceLen s = (gap, .ok, s1) →
      samplerTake (s.cfg.eqlen * s.cfg.nsym + s.cfg.lookahead) s1 = (cap, .ok, s2) →
      samplerTake s.cfg.silencePost s2 = (post, .short, s3) →
      exec .train s = .next { s3 with mode := .failed, cause := .underrun, run := none }) ∧
    (samplerTake s.cfg.silenceLen s = (gap, .ok, s1) →
      samplerTake (s.cfg.eqlen * s.cfg.nsym + s.cfg.lookahead) s1 = (cap, .ok, s2) →
      samplerTake s.cfg.silencePost s2 = (post, .error, s3) →
      exec .train s = .next { s3 with mode := .failed, cause := .unexpected, run := none })

/-- R145 to R148: `errors` is the number of pairs (k, t), k below EQLEN and t below NTONE, whose symbol is sliced to
another value than TRAINSYM[k][t]. The symbol of (k, t) is `correlate` of the samples Y[LOOKAHEAD + k × Nsym + j], j
below Nsym, and tone t, and it is sliced to its nearest member of TRAINALPHA. `errors` is zero exactly when every
symbol agrees, and at most EQLEN × NTONE, so that 32 bits hold it (44_kernels R207). That values are compared as
numbers is the model's reading (log 18). -/
def Obligations.TrainErrorsCountsMismatches : Prop :=
  ∀ (c : Config) (y : List Real64),
    let symbol (k t : Nat) : Cplx :=
      correlate c ((List.range c.nsym).filterMap fun j => y[c.lookahead + k * c.nsym + j]?) t
    let agrees (k t : Nat) : Bool :=
      cplxEq c (c.trainalpha.getD (nearest c c.trainalpha (symbol k t)) cplxZero)
        ((c.trainsym.getD k []).getD t cplxZero)
    let pairs : List (Nat × Nat) :=
      (List.range c.eqlen).flatMap fun k => (List.range c.ntone).map fun t => (k, t)
    trainErrors c y = pairs.countP (fun p => !agrees p.1 p.2) ∧
    (trainErrors c y = 0 ↔ ∀ k t, k < c.eqlen → t < c.ntone → agrees k t = true) ∧
    trainErrors c y ≤ c.eqlen * c.ntone

/-! ## SYM and RUN (42_demodulator), the drift loop (43_drift_loop) -/

/-- R160, R162 to R168, R170: in DEMODULATING, with the window pulled, every push accepted and the interval not yet
complete, SYM completes: the symbols are `correlate` of the window and each tone, tone 0 first; the ratio of each to
its constellation point is appended to ERR and the BITMAP tuple of its index to OUT, both in tone order; BITCNT grows
by BPS for each tuple, BLKTOT and SYMCNT by 1; nothing else but the samples counted and the two ports changes. What
`slice` answers is in EverySymbolIsSliced. -/
def Obligations.SymDemodulatesBlock : Prop :=
  ∀ (s s1 s2 : State) (w : List Real64), s.mode = .demodulating →
    let symbols := (List.range s.cfg.ntone).map (correlate s.cfg w)
    let tuples := symbols.map fun z => s.cfg.bitmap.getD (slice s.cfg z) []
    let ratios := symbols.map fun z => ratio s.cfg z (s.cfg.const.getD (slice s.cfg z) cplxZero)
    samplerTake s.cfg.nsym s = (w, .ok, s1) →
    pushAll tuples (accumulate symbols s1) = (.ok, s2) →
    (s.symcnt + 1).toNat ≠ s.cfg.baud →
    exec .sym s = .next { s with
      err := s.err ++ ratios, out := s.out ++ tuples,
      bitcnt := s.bitcnt + BitVec.ofNat 64 (s.cfg.ntone * s.cfg.bps),
      blktot := s.blktot + 1, symcnt := s.symcnt + 1, pulled := s.pulled + s.cfg.nsym,
      samplerIn := s1.samplerIn, samplerState := s1.samplerState,
      sinkIn := s2.sinkIn, sinkState := s2.sinkState }

/-- R168, 43_drift_loop R183, R184: the SYM step whose increment makes SYMCNT equal to `baud` makes the drift
correction from all ratios, its own block's among them, in tone order: FREQ and OFFSET are lowered, ERR is emptied,
SYMCNT is 0, NCORR grows by 1, LASTERR is the mean. The block's tuples are pushed as in every SYM step (R163, R165):
the BITMAP tuple of each tone's slice, tone 0 first. -/
def Obligations.SymMakesDriftCorrection : Prop :=
  ∀ (s s1 s2 : State) (w : List Real64), s.mode = .demodulating →
    let symbols := (List.range s.cfg.ntone).map (correlate s.cfg w)
    let tuples := symbols.map fun z => s.cfg.bitmap.getD (slice s.cfg z) []
    let ratios := symbols.map fun z => ratio s.cfg z (s.cfg.const.getD (slice s.cfg z) cplxZero)
    samplerTake s.cfg.nsym s = (w, .ok, s1) →
    pushAll tuples (accumulate symbols s1) = (.ok, s2) →
    (s.symcnt + 1).toNat = s.cfg.baud →
    let mean := meanPhase s.cfg (s.err ++ ratios)
    exec .sym s = .next { s with
      freq := numSub s.cfg s.freq (numDiv s.cfg (numMul s.cfg s.cfg.kfreq mean) s.cfg.fc),
      offset := numSub s.cfg s.offset mean, err := [], symcnt := 0, ncorr := s.ncorr + 1, lasterr := mean,
      out := s.out ++ tuples, bitcnt := s.bitcnt + BitVec.ofNat 64 (s.cfg.ntone * s.cfg.bps),
      blktot := s.blktot + 1, pulled := s.pulled + s.cfg.nsym,
      samplerIn := s1.samplerIn, samplerState := s1.samplerState,
      sinkIn := s2.sinkIn, sinkState := s2.sinkState }

/-- R161: a window the signal cannot fill ends the session in DONE: the samples are lost, EXHAUSTED is set,
nothing is computed or pushed, no correction is made. -/
def Obligations.SymAtEndOfSignal : Prop :=
  ∀ (s s1 : State) (w : List Real64), s.mode = .demodulating →
    samplerTake s.cfg.nsym s = (w, .short, s1) →
    exec .sym s = .next { s with
      mode := .done, exhausted := true, pulled := s.pulled + w.length,
      samplerIn := s1.samplerIn, samplerState := s1.samplerState }

/-- R161, R167, 60_exceptions R225: a SYM whose pull or push is answered `error` takes Fault(4). After a failed pull
only the samples are gone. After a failed push the block's ratios are in ERR; OUT and BITCNT are as the pushes left
them, which is with the first `j` tuples appended and counted for some `j` below NTONE, and for exactly the `j` that
a sink accepts before it answers `error`; BLKTOT, SYMCNT, FREQ and OFFSET are unchanged. -/
def Obligations.SymPortErrorFaults : Prop :=
  ∀ (s s1 s2 : State) (w : List Real64), s.mode = .demodulating →
    let symbols := (List.range s.cfg.ntone).map (correlate s.cfg w)
    let tuples := symbols.map fun z => s.cfg.bitmap.getD (slice s.cfg z) []
    let ratios := symbols.map fun z => ratio s.cfg z (s.cfg.const.getD (slice s.cfg z) cplxZero)
    let faulted := { s with
      mode := .failed, cause := .unexpected, run := none,
      err := s.err ++ ratios, pulled := s.pulled + s.cfg.nsym,
      samplerIn := s1.samplerIn, samplerState := s1.samplerState }
    (samplerTake s.cfg.nsym s = (w, .error, s1) →
      exec .sym s = .next { s with
        mode := .failed, cause := .unexpected, run := none, pulled := s.pulled + w.length,
        samplerIn := s1.samplerIn, samplerState := s1.samplerState }) ∧
    (samplerTake s.cfg.nsym s = (w, .ok, s1) →
      pushAll tuples (accumulate symbols s1) = (.error, s2) →
      exec .sym s = .next { faulted with
        out := s2.out, bitcnt := s2.bitcnt, sinkIn := s2.sinkIn, sinkState := s2.sinkState } ∧
      ∃ j, j < s.cfg.ntone ∧ s2.out = s.out ++ tuples.take j ∧
        s2.bitcnt = s.bitcnt + BitVec.ofNat 64 (j * s.cfg.bps)) ∧
    (samplerTake s.cfg.nsym s = (w, .ok, s1) →
      ∀ (j : Nat) (as : List PushAnswer), j < s.cfg.ntone → s.sinkIn = List.replicate j .ok ++ .error :: as →
      exec .sym s = .next { faulted with
        out := s.out ++ tuples.take j, bitcnt := s.bitcnt + BitVec.ofNat 64 (j * s.cfg.bps), sinkIn := as })

/-- R169: in DEMODULATING, RUN n completes its first SYM step, with all that a SYM does there, and goes on after it
while the block is in DEMODULATING and `n` is 0 or above 1. That this is the first step of RUN is the model's
choice (log 15). -/
def Obligations.RunMakesFirstSymStep : Prop :=
  ∀ (n : BitVec 24) (s : State), s.mode = .demodulating →
    ∃ u, exec .sym s = .next u ∧
      exec (.run n) s = .next { u with
        run := if u.mode = .demodulating ∧ n = 0 then some ⟨0, 0⟩
               else if u.mode = .demodulating ∧ 1 < n.toNat then some ⟨n, 1⟩
               else none }

/-- R169: RUN n with n above 0 is exactly n SYM commands in a row, whatever happens in them: after n steps of the
block the two states are the same, and with other words issued after them both come to one and the same state with
exactly those words left, the RUN after at most n steps. That the step which takes RUN makes its first SYM step, on
which the counts of steps rest, is the model's choice (log 15). -/
def Obligations.RunIsThatManySyms : Prop :=
  ∀ (n : BitVec 24) (s : State), n ≠ 0 → configOk s.cfg = true → s.mode = .demodulating →
    s.resetIn = false → s.run = none →
    core.run n.toNat { s with cmds := encode (.run n) } =
      core.run n.toNat { s with cmds := List.replicate n.toNat 0x05000000 } ∧
    ∀ rest : List Word, ∃ (m : Nat) (t : State), 0 < m ∧ m ≤ n.toNat ∧ t.run = none ∧ t.cmds = rest ∧
      core.run m { s with cmds := encode (.run n) ++ rest } = .next t ∧
      core.run n.toNat { s with cmds := List.replicate n.toNat 0x05000000 ++ rest } = .next t

/-- R169, 70_reset R262: RUN 0 makes one SYM step a step for as long as the block stays in DEMODULATING: after any
k steps it is where k SYM commands lead, still running exactly if it is still in DEMODULATING. That the step which
takes RUN makes the first SYM step, and that no count is kept for n = 0, is the model's choice (log 15). -/
def Obligations.RunZeroHasNoLimit : Prop :=
  ∀ (k : Nat) (s t : State), 0 < k → configOk s.cfg = true → s.mode = .demodulating →
    s.resetIn = false → s.run = none →
    core.run k { s with cmds := List.replicate k 0x05000000 } = .next t →
    core.run k { s with cmds := encode (.run 0) } =
      .next { t with run := if t.mode = .demodulating then some ⟨0, 0⟩ else none }

/-! ## Kernels (44_kernels) -/

/-- R198: `nearest` answers an index of the list, whatever `Num` is. With the distance of S to P[j] as R198 writes it,
(re−re')×(re−re') + (im−im')×(im−im') in the arithmetic of the configuration, the reference arithmetic picks a point
of least distance, and of several the one of lowest index, when no distance is a NaN; when every distance is a NaN it
picks index 0 (93 U17). -/
def Obligations.NearestIsLeastAndLowest : Prop :=
  ∀ (c : Config) (points : List Cplx) (s : Cplx), points ≠ [] →
    let d (j : Nat) : Real64 :=
      let dr := numSub c s.re (points.getD j cplxZero).re
      let di := numSub c s.im (points.getD j cplxZero).im
      numAdd c (numMul c dr dr) (numMul c di di)
    nearest c points s < points.length ∧
    (c.num = .reference → (∀ j, j < points.length → isNaN (d j) = false) →
      (∀ j, j < points.length → realLt (d j) (d (nearest c points s)) = false) ∧
      (∀ j, j < nearest c points s → realLt (d (nearest c points s)) (d j) = true)) ∧
    (c.num = .reference → (∀ j, j < points.length → isNaN (d j) = true) → nearest c points s = 0)

/-- 42_demodulator R162, R163, R164, R170, 44_kernels R198, 00_scope R10: the symbols of a block are `correlate` of its
window and tone t, t from 0 to NTONE − 1; the reference slicer is `nearest` over CONST; and in a well-formed
configuration every symbol is sliced to a point of the constellation, which is not zero, and to the tuple that BITMAP
has at its index, of BPS bits. That another slicer than the reference answers an index too, and that symbols are
compared as numbers, is the model's reading (logs 21, 18). -/
def Obligations.EverySymbolIsSliced : Prop :=
  ∀ c : Config,
    (∀ w : List Real64, (blockSymbols c w).length = c.ntone ∧
      ∀ t, t < c.ntone → (blockSymbols c w)[t]? = some (correlate c w t)) ∧
    (c.slice = .reference → ∀ z : Cplx, slice c z = nearest c c.const z) ∧
    (configOk c = true → ∀ z : Cplx,
      slice c z < c.m ∧ cplxEq c (c.const.getD (slice c z) cplxZero) cplxZero = false ∧
      c.bitmap[slice c z]? = some (symbolTuple c z) ∧ (symbolTuple c z).length = c.bps)

/-- R197, 00_scope R13: the reference correlator is CSCALE times the sum, n ascending from 0, of
W[n] × conj(REF[t][n]), where conj(a+bj) = a+(−b)j, a real times a complex multiplies both parts, and complex numbers
are added part by part. That −b inverts the sign bit is the model's reading (log 2). -/
def Obligations.CorrelatorFormula : Prop :=
  ∀ (c : Config) (w : List Real64) (t : Nat), configOk c = true → w.length = c.nsym → t < c.ntone →
    c.correlate = .reference →
    let acc := (List.range c.nsym).foldl
      (fun (acc : Cplx) n =>
        let r := (c.ref.getD t []).getD n ⟨0, 0⟩
        ⟨numAdd c acc.re (numMul c (w.getD n 0) r.re),
         numAdd c acc.im (numMul c (w.getD n 0) (r.im ^^^ 0x8000000000000000))⟩)
      ⟨0, 0⟩
    correlate c w t = ⟨numMul c c.cscale acc.re, numMul c c.cscale acc.im⟩

/-- R203: the reference filter's output is as long as its input, and y[m] is the sum, k ascending from 0, of
h[k] × x[m − k] over the taps that do not reach before the start. -/
def Obligations.FirFormula : Prop :=
  ∀ (c : Config) (h x : List Real64), c.firApply = .reference →
    (firApply c h x).length = x.length ∧
    ∀ m, m < x.length → (firApply c h x).getD m 0 =
      ((List.range h.length).filter (fun k => decide (k ≤ m))).foldl
        (fun acc k => numAdd c acc (numMul c (h.getD k 0) (x.getD (m - k) 0))) 0

/-- R201, 93 U12: whatever function stands in its place, equalize_signal returns NCOEF finite reals. -/
def Obligations.EqualizerReturnsFiniteCoefficients : Prop :=
  ∀ (c : Config) (signal : List Real64),
    (equalizeSignal c signal).length = c.ncoef ∧ ∀ x ∈ equalizeSignal c signal, isFinite x = true

/-- R200, 93 U14: the angle on the axes, a zero part of either sign counting as zero, and its range
−π < angle ≤ π for every argument without a NaN, whichever function stands in its place. That the zero results are
+0 and that infinite parts count on the axes is the model's reading (log 28). -/
def Obligations.AngleAxesAndRange : Prop :=
  ∀ (c : Config) (z : Cplx), isNaN z.re = false → isNaN z.im = false →
    (isZero z.re = true → isZero z.im = true → angle c z = 0) ∧
    (isZero z.im = true → realLt 0 z.re = true → angle c z = 0) ∧
    (isZero z.im = true → realLt z.re 0 = true → angle c z = 0x400921FB54442D18) ∧
    (isZero z.re = true → realLt 0 z.im = true → angle c z = realHalfPi) ∧
    (isZero z.re = true → realLt z.im 0 = true → angle c z = realNeg realHalfPi) ∧
    realLt (realNeg realPi) (angle c z) = true ∧
    (realLt (angle c z) realPi = true ∨ angle c z = realPi)

/-- R205, 43_drift_loop R182: in the reference arithmetic the phase is exactly 0.5, 0.25, 0.125, −0.125 and −0.25 on
the negative real axis, the positive imaginary axis, the diagonals of positive real part and the negative imaginary
axis, and for every ratio without a NaN it is above −0.5 and at most 0.5. R205 says so of the reference `angle`; that
every other one has the two diagonal values too is what 93 U14 assumes of it and R200 does not, and the model's choice
(log 7). That infinite parts count is the model's reading (log 28). -/
def Obligations.PhaseOnAxesAndDiagonals : Prop :=
  ∀ c : Config, c.num = .reference →
    (∀ a b : Real64, realLt 0 a = true → isZero b = true →
      phaseOf c ⟨realNeg a, b⟩ = 0x3FE0000000000000 ∧
      phaseOf c ⟨b, a⟩ = 0x3FD0000000000000 ∧
      phaseOf c ⟨a, a⟩ = 0x3FC0000000000000 ∧
      phaseOf c ⟨a, realNeg a⟩ = 0xBFC0000000000000 ∧
      phaseOf c ⟨b, realNeg a⟩ = 0xBFD0000000000000) ∧
    (∀ z : Cplx, isNaN z.re = false → isNaN z.im = false →
      realLt 0xBFE0000000000000 (phaseOf c z) = true ∧
      (realLt (phaseOf c z) 0x3FE0000000000000 = true ∨ phaseOf c z = 0x3FE0000000000000))

/-- 43_drift_loop R185, R186: MeanPhase is 0 for no ratios; else the phases added one by one in list order, from
0.0, over the count; and appending a block's ratios continues the running sum bit for bit. The count is converted
exactly below 2^53, which no count of a well-formed configuration reaches (44_kernels R207 (f)): its value in units of
2^-1074 is n × 2^1074 (the format: log 3). -/
def Obligations.MeanPhaseIsRunningSum : Prop :=
  (∀ (c : Config) (l block : List Cplx) (e : Cplx),
    meanPhase c [] = 0 ∧
    (l ≠ [] → meanPhase c l = numDiv c (phaseSum c l) (realOfNat l.length)) ∧
    phaseSum c [] = 0 ∧
    phaseSum c (l ++ [e]) = numAdd c (phaseSum c l) (numDiv c (angle c e) 0x401921FB54442D18) ∧
    phaseSum c (l ++ block) = block.foldl (fun sum r => numAdd c sum (phaseOf c r)) (phaseSum c l)) ∧
  (∀ n : Nat, n < 2 ^ 53 → isFinite (realOfNat n) = true ∧ unitsOf (realOfNat n) = n * 2 ^ 1074)

/-- 44_kernels R204, 00_scope R13: a finite real is the rounding of its own exact value, so that no bit of an encoding
is lost between a real and its value; and in the reference arithmetic +, −, × and / of finite reals are their exact
results rounded once, and < and = compare the exact values. A zero sum is +0, but for two zeros of sign minus. The
format and the rules of IEEE 754 are taken from general knowledge (log 3); that = is equality of numbers, log 18. -/
def Obligations.FiniteRealsRoundToThemselves : Prop :=
  (∀ x : Real64, isFinite x = true → roundUnits (isNegative x) (magnitude x) 1 = x) ∧
  ∀ (c : Config) (x y : Real64), c.num = .reference → isFinite x = true → isFinite y = true →
    let sum := unitsOf x + unitsOf y
    let difference := unitsOf x - unitsOf y
    (numAdd c x y = if sum = 0 then realZero (isNegative x && isNegative y)
      else roundUnits (decide (sum < 0)) sum.natAbs 1) ∧
    (numSub c x y = if difference = 0 then realZero (isNegative x && !isNegative y)
      else roundUnits (decide (difference < 0)) difference.natAbs 1) ∧
    numMul c x y = roundUnits (isNegative x != isNegative y) (unitsOf x * unitsOf y).natAbs (2 ^ 1074) ∧
    (isZero y = false → numDiv c x y =
      roundUnits (isNegative x != isNegative y) ((unitsOf x).natAbs * 2 ^ 1074) (unitsOf y).natAbs) ∧
    numLt c x y = decide (unitsOf x < unitsOf y) ∧
    numEq c x y = decide (unitsOf x = unitsOf y)

/-- 44_kernels R204: round to nearest even. The rounding of ± num / den (in units of 2^-1074) has that sign. From the
midpoint above the largest finite real on it is the infinity, below it is finite. A finite result is nearest: no
finite real's magnitude lies closer (distances multiplied by den), and where another lies as close the last bit of
the result's significand is 0. The rounding of IEEE 754 is taken from general knowledge (log 3). -/
def Obligations.RoundingIsToNearest : Prop :=
  ∀ (neg : Bool) (num den : Nat), 0 < den →
    let r := roundUnits neg num den
    let distance (x : Real64) : Nat := ((magnitude x * den : Nat) - (num : Int)).natAbs
    isNegative r = neg ∧
    (num < (2 ^ 54 - 1) * 2 ^ 2044 * den → isFinite r = true) ∧
    ((2 ^ 54 - 1) * 2 ^ 2044 * den ≤ num → r = if neg then 0xFFF0000000000000 else 0x7FF0000000000000) ∧
    (isFinite r = true → ∀ x : Real64, isFinite x = true →
      distance r ≤ distance x ∧
      (magnitude x ≠ magnitude r → distance x = distance r → fracField r % 2 = 0))

/-! ## Invariants and rules about the whole machine -/

/-- The state after reset satisfies the invariant, and so does a fresh block of any well-formed configuration. The
configuration of `State.reset` is the model's choice (log 1). -/
def Obligations.FreshBlockHasInvariant : Prop :=
  BlockInv State.reset ∧ ∀ c : Config, configOk c = true → BlockInv (State.fresh c)

/-- Every step keeps the invariant (10_state R24 to R33, 43_drift_loop R181, 60_exceptions R221, R225, 70_reset
R264). -/
def Obligations.StepKeepsInvariant : Prop :=
  ∀ s t : State, BlockInv s → step s = .next t → BlockInv t

/-- No event of the outside world touches the invariant (10_state R37). -/
def Obligations.EnvironmentKeepsInvariant : Prop :=
  ∀ (e : EnvEvent) (s : State), BlockInv s → BlockInv (e.apply s)

/-- 10_state R25: MODE only moves forward, and each move is made by what R25 names, at every step that does not
reset the session. -/
def Obligations.ModeOnlyMovesForward : Prop :=
  ∀ s t : State, step s = .next t → ¬ ResetsNext s →
    t.mode = s.mode ∨
    (s.mode = .pre ∧ t.mode = .training ∧ ∃ delta rest, decode s.cmds = .instr (.fadj delta) rest) ∨
    (s.mode = .training ∧ t.mode = .demodulating ∧ t.eqValid = true ∧
      ∃ rest, decode s.cmds = .instr .train rest) ∨
    (s.mode = .demodulating ∧ t.mode = .done ∧ t.exhausted = true) ∨
    (s.mode.terminal = false ∧ t.mode = .failed ∧ t.run = none)

/-- 30_encoding R99, 60_exceptions R228: DONE and FAILED are left by a reset only, and without one nothing of the
session changes in them, nor the Sampler's and the sink's answers: a step takes the words of one command, or none where
no whole command is issued, and makes at most one response. -/
def Obligations.TerminalModesAreAbsorbing : Prop :=
  ∀ s t : State, step s = .next t → ¬ ResetsNext s → s.mode.terminal = true → s.run = none →
    SameSession s t ∧ t.samplerIn = s.samplerIn ∧ t.samplerState = s.samplerState ∧
    t.sinkIn = s.sinkIn ∧ t.sinkState = s.sinkState ∧ t.resetIn = s.resetIn ∧
    (t.cmds = match decode s.cmds with
      | .instr _ rest => rest
      | .illegal _ rest => rest
      | .needMore => s.cmds) ∧
    (t.resp = s.resp ∨ ∃ v, t.resp = s.resp ++ [v])

/-- 10_state R28, R29, R32, R37, 70_reset R257: without a reset, FREQ is written by FADJ and by the drift
correction only, OFFSET by the drift correction only, H by TRAIN's install only. -/
def Obligations.SamplerTripleHasThreeWriters : Prop :=
  ∀ s t : State, step s = .next t → ¬ ResetsNext s →
    (t.freq = s.freq ∨
      (s.mode = .pre ∧ ∃ delta rest, decode s.cmds = .instr (.fadj delta) rest ∧
        t.freq = numSub s.cfg s.freq delta) ∨
      (s.mode = .demodulating ∧ t.ncorr = s.ncorr + 1 ∧
        t.freq = numSub s.cfg s.freq (numDiv s.cfg (numMul s.cfg s.cfg.kfreq t.lasterr) s.cfg.fc))) ∧
    (t.offset = s.offset ∨
      (s.mode = .demodulating ∧ t.ncorr = s.ncorr + 1 ∧ t.offset = numSub s.cfg s.offset t.lasterr)) ∧
    (t.h = s.h ∨ (s.mode = .training ∧ t.mode = .demodulating ∧ ∃ rest, decode s.cmds = .instr .train rest))

/-- 20_memory R65, 10_state R36: nothing pushed is withdrawn, by a fault or by anything else but a new session;
at most one block of tuples is appended a step, and only in DEMODULATING. -/
def Obligations.OutIsAppendOnly : Prop :=
  ∀ s t : State, step s = .next t → ¬ ResetsNext s →
    ∃ ts, t.out = s.out ++ ts ∧ ts.length ≤ s.cfg.ntone ∧ (ts ≠ [] → s.mode = .demodulating)

/-- 20_memory R66, 40_host_commands R121: only RDREG responds, one word each; a word with opcode 0x01 that is not
legal responds too. No step takes a response away. -/
def Obligations.OnlyRdregResponds : Prop :=
  ∀ s t : State, step s = .next t →
    t.resp = s.resp ∨
    ∃ v, t.resp = s.resp ++ [v] ∧
      ((∃ r rest, decode s.cmds = .instr (.rdreg r) rest) ∨
       (v = 0 ∧ ∃ rest, decode s.cmds = .illegal (.mustBeZero 0x01) rest))

/-- 00_scope R8: no step changes the configuration. -/
def Obligations.ConfigurationIsFixed : Prop :=
  ∀ s t : State, step s = .next t → t.cfg = s.cfg

/-- 60_exceptions R225, R226: a step that enters FAILED records a cause and ends a RUN in progress, and leaves
FREQ, OFFSET, H, EQVALID, SYMCNT, BLKTOT, NCORR and LASTERR as they were. -/
def Obligations.FaultLeavesLoopUnchanged : Prop :=
  ∀ s t : State, step s = .next t → s.mode ≠ .failed → t.mode = .failed →
    t.cause ≠ .none ∧ t.run = none ∧ t.freq = s.freq ∧ t.offset = s.offset ∧ t.h = s.h ∧
    t.eqValid = s.eqValid ∧ t.symcnt = s.symcnt ∧ t.blktot = s.blktot ∧ t.ncorr = s.ncorr ∧
    t.lasterr = s.lasterr

/-- 43_drift_loop R188, 10_state R33: telemetry is not feedback. Two states that differ only in telemetry and in
the responses already made go, by one step, to states that differ only in them. -/
def Obligations.TelemetryIsNotFeedback : Prop :=
  ∀ s s' t t' : State, withoutTelemetry s = withoutTelemetry s' →
    step s = .next t → step s' = .next t' → withoutTelemetry t = withoutTelemetry t'

/-! ## The error ratio (44_kernels) -/

/-- 44_kernels R199, 42_demodulator R164: the reference ratio of S = a+bj and p+qj is
((a×p + b×q) / den) + ((b×p − a×q) / den)j with den = p×p + q×q, each operation of `Num` in that order; and the ratio of
a symbol is the one to the constellation point that it is sliced to. -/
def Obligations.RatioFormula : Prop :=
  ∀ (c : Config) (a b : Real64), c.ratio = .reference →
    (∀ p q : Real64,
      let den := numAdd c (numMul c p p) (numMul c q q)
      ratio c ⟨a, b⟩ ⟨p, q⟩ =
        ⟨numDiv c (numAdd c (numMul c a p) (numMul c b q)) den,
         numDiv c (numSub c (numMul c b p) (numMul c a q)) den⟩) ∧
    symbolRatio c ⟨a, b⟩ = ratio c ⟨a, b⟩ (c.const.getD (slice c ⟨a, b⟩) cplxZero)
end

