-- ==== Sys2Proof/Laws/Binary64.lean ====
section
/-! SUPPORT. The reference arithmetic (44_kernels R204): the fields of an encoding, what rounding can do, what a free
NaN result is, and that a NaN spreads. -/

namespace Sys2Proof.Machine

/-! ## Encodings -/

theorem withSign_toNat (neg : Bool) (low : Nat) (h : low < 2 ^ 63) :
    (withSign neg low).toNat = low + if neg then 2 ^ 63 else 0 := by
  unfold withSign
  rw [BitVec.toNat_ofNat, Nat.mod_eq_of_lt]
  cases neg <;> (simp; omega)

theorem isNegative_withSign (neg : Bool) (low : Nat) (h : low < 2 ^ 63) : isNegative (withSign neg low) = neg := by
  rw [isNegative, BitVec.msb_eq_decide, withSign_toNat neg low h]
  cases neg
  · simp; omega
  · simp

theorem expField_withSign (neg : Bool) (low : Nat) (h : low < 2 ^ 63) :
    expField (withSign neg low) = low / 2 ^ 52 := by
  rw [expField, withSign_toNat neg low h]
  cases neg <;> (simp; omega)

theorem fracField_withSign (neg : Bool) (low : Nat) (h : low < 2 ^ 63) :
    fracField (withSign neg low) = low % 2 ^ 52 := by
  rw [fracField, withSign_toNat neg low h]
  cases neg
  · simp
  · simp; omega

theorem isFinite_withSign (neg : Bool) (low : Nat) (h : low < 2 ^ 63) :
    isFinite (withSign neg low) = true ↔ low / 2 ^ 52 ≠ 2047 := by
  rw [isFinite, expField_withSign neg low h, bne_iff_ne]

/-- The magnitude of an encoding built from `k` dropped places and a significand `m`. -/
theorem magnitude_withSign (neg : Bool) (k m : Nat) (h : k * 2 ^ 52 + m < 2047 * 2 ^ 52) (hm : m ≤ 2 ^ 53)
    (hk : 0 < k → 2 ^ 52 ≤ m) : magnitude (withSign neg (k * 2 ^ 52 + m)) = m * 2 ^ k := by
  rw [magnitude, expField_withSign _ _ (by omega), fracField_withSign _ _ (by omega), Nat.shiftLeft_eq]
  rcases Nat.lt_or_ge m (2 ^ 52) with h1 | h1
  · have : k = 0 := by omega
    have e : (k * 2 ^ 52 + m) / 2 ^ 52 = 0 := by omega
    have f : (k * 2 ^ 52 + m) % 2 ^ 52 = m := by omega
    rw [if_pos e, f, this, Nat.pow_zero, Nat.mul_one]
  · rcases Nat.lt_or_ge m (2 ^ 53) with h2 | h2
    · have e : (k * 2 ^ 52 + m) / 2 ^ 52 = k + 1 := by omega
      have f : (k * 2 ^ 52 + m) % 2 ^ 52 = m - 2 ^ 52 := by omega
      rw [e, f, if_neg (by omega), Nat.add_sub_cancel, Nat.add_sub_cancel' h1]
    · have e : (k * 2 ^ 52 + m) / 2 ^ 52 = k + 2 := by omega
      have f : (k * 2 ^ 52 + m) % 2 ^ 52 = 0 := by omega
      rw [e, f, if_neg (by omega), show k + 2 - 1 = k + 1 by omega, Nat.pow_succ, show m = 2^53 by omega]
      omega

/-- A finite real's magnitude is a significand below 2^53, full unless no place is dropped, times a power of two. -/
theorem magnitude_cases (x : Real64) (h : isFinite x = true) :
    ∃ k m, magnitude x = m * 2 ^ k ∧ m < 2 ^ 53 ∧ (0 < k → 2 ^ 52 ≤ m) ∧ k ≤ 2045 := by
  rw [isFinite, bne_iff_ne] at h
  have frac : fracField x < 2 ^ 52 := Nat.mod_lt _ (by decide)
  have exp : expField x < 2048 := Nat.mod_lt _ (by decide)
  unfold magnitude
  split
  · exact ⟨0, fracField x, (Nat.mul_one _).symm, by omega, by omega, by omega⟩
  · exact ⟨expField x - 1, _, Nat.shiftLeft_eq _ _, by omega, by omega, by omega⟩

theorem not_nan_inf_of_isFinite {x : Real64} (h : isFinite x = true) : isNaN x = false ∧ isInf x = false := by
  rw [isFinite, bne_iff_ne] at h
  simp [isNaN, isInf, h]

@[simp] theorem natAbs_unitsOf (x : Real64) : (unitsOf x).natAbs = magnitude x := by
  unfold unitsOf
  split <;> simp

/-! Unary minus changes the sign and nothing else. -/

@[simp] theorem isNegative_realNeg (x : Real64) : isNegative (realNeg x) = !isNegative x := by
  rw [isNegative, realNeg, BitVec.msb_xor, show BitVec.msb (0x8000000000000000 : Real64) = true by decide,
    Bool.xor_true, isNegative]

theorem setWidth_realNeg (x : Real64) : (realNeg x).setWidth 63 = x.setWidth 63 := by
  rw [realNeg, BitVec.setWidth_xor, show BitVec.setWidth 63 (0x8000000000000000 : Real64) = 0#63 by decide,
    BitVec.xor_zero]

theorem toNat_realNeg_mod (x : Real64) : (realNeg x).toNat % 2 ^ 63 = x.toNat % 2 ^ 63 := by
  simpa using congrArg BitVec.toNat (setWidth_realNeg x)

@[simp] theorem expField_realNeg (x : Real64) : expField (realNeg x) = expField x := by
  have := toNat_realNeg_mod x
  unfold expField
  omega

@[simp] theorem fracField_realNeg (x : Real64) : fracField (realNeg x) = fracField x := by
  have := toNat_realNeg_mod x
  unfold fracField
  omega

@[simp] theorem isFinite_realNeg (x : Real64) : isFinite (realNeg x) = isFinite x := by simp [isFinite]

@[simp] theorem magnitude_realNeg (x : Real64) : magnitude (realNeg x) = magnitude x := by simp [magnitude]

@[simp] theorem unitsOf_realNeg (x : Real64) : unitsOf (realNeg x) = -unitsOf x := by
  cases h : isNegative x <;> simp [unitsOf, h]

theorem withSign_nan (neg : Bool) (f : Nat) (h0 : 0 < f) (h1 : f < 2 ^ 52) :
    isNaN (withSign neg (2047 * 2 ^ 52 + f)) = true := by
  rw [isNaN, expField_withSign _ _ (by omega), fracField_withSign _ _ (by omega),
    show (2047 * 2 ^ 52 + f) / 2 ^ 52 = 2047 by omega, show (2047 * 2 ^ 52 + f) % 2 ^ 52 = f by omega]
  simp; omega

/-! ## Rounding -/

/-- What `roundUnits` can do: `k` places are dropped, none below the normal range, and `m` is the nearest
significand, the even one on a tie. -/
theorem roundUnits_spec (neg : Bool) (num den : Nat) (hd : 0 < den) :
    ∃ k m, roundUnits neg num den = withSign neg (min (k * 2 ^ 52 + m) (2047 * 2 ^ 52)) ∧
      m ≤ 2 ^ 53 ∧ (0 < k → 2 ^ 52 ≤ m ∧ 2 ^ 52 * (den * 2 ^ k) ≤ num) ∧ num < 2 ^ 53 * (den * 2 ^ k) ∧
      2 * (m * (den * 2 ^ k)) ≤ 2 * num + den * 2 ^ k ∧ 2 * num ≤ 2 * (m * (den * 2 ^ k)) + den * 2 ^ k ∧
      (2 * (m * (den * 2 ^ k)) = 2 * num + den * 2 ^ k ∨ 2 * num = 2 * (m * (den * 2 ^ k)) + den * 2 ^ k →
        m % 2 = 0) := by
  have hlog : ∀ v : Nat, v < 2 ^ (Nat.log2 v + 1) ∧ (v ≠ 0 → 2 ^ Nat.log2 v ≤ v) := fun v =>
    ⟨Nat.lt_log2_self, Nat.log2_self_le⟩
  obtain ⟨hlt, hge⟩ := hlog (num / den)
  simp only [roundUnits, Nat.shiftLeft_eq]
  generalize hk : Nat.log2 (num / den) - 52 = k
  have hD : 0 < den * 2 ^ k := Nat.mul_pos hd (Nat.two_pow_pos k)
  have hnum := Nat.div_add_mod num (den * 2 ^ k)
  have hr := Nat.mod_lt num hD
  have hq1 : num / (den * 2 ^ k) < 2 ^ 53 := by
    rw [← Nat.div_div_eq_div_mul, Nat.div_lt_iff_lt_mul (Nat.two_pow_pos k), ← Nat.pow_add]
    exact Nat.lt_of_lt_of_le hlt (Nat.pow_le_pow_right (by decide) (by omega))
  have hq0 : 0 < k → 2 ^ 52 ≤ num / (den * 2 ^ k) := by
    intro h
    rw [← Nat.div_div_eq_div_mul, Nat.le_div_iff_mul_le (Nat.two_pow_pos k), ← Nat.pow_add]
    refine Nat.le_trans (Nat.pow_le_pow_right (by decide) (by omega)) (hge ?_)
    intro h0; rw [h0] at hk; simp at hk; omega
  refine ⟨k, _, rfl, ?_⟩
  generalize num / (den * 2 ^ k) = q at *
  generalize num % (den * 2 ^ k) = r at *
  generalize den * 2 ^ k = D at *
  rw [Nat.mul_comm] at hnum
  refine ⟨?_, ?_, ?_, ?_, ?_, ?_⟩
  · split <;> omega
  · intro h
    have := hq0 h
    refine ⟨by split <;> omega, ?_⟩
    have := Nat.mul_le_mul_right D this
    omega
  · have := Nat.mul_le_mul_right D (show q + 1 ≤ 2 ^ 53 by omega)
    rw [Nat.add_mul] at this
    omega
  all_goals split
  all_goals try simp only [Nat.add_mul, Nat.one_mul]
  all_goals omega

/-! ## NaN -/

/-- Whatever the free value is, the result is a NaN. -/
@[simp] theorem isNaN_realNaN (op : RealOp) (a b : Real64) : isNaN (realNaN op a b) = true := by
  simp only [realNaN]
  split
  · exact withSign_nan _ _ (by decide) (by decide)
  · rename_i h
    exact withSign_nan _ _ (Nat.pos_of_ne_zero fun h0 => h (BitVec.eq_of_toNat_eq (by simpa using h0)))
      (BitVec.isLt _)

theorem realAdd_nan {a b : Real64} (h : isNaN a = true ∨ isNaN b = true) : isNaN (realAdd a b) = true := by
  rcases h with h | h <;> simp [realAdd, h]

theorem realSub_nan {a b : Real64} (h : isNaN a = true ∨ isNaN b = true) : isNaN (realSub a b) = true := by
  rcases h with h | h <;> simp [realSub, h]

theorem realMul_nan {a b : Real64} (h : isNaN a = true ∨ isNaN b = true) : isNaN (realMul a b) = true := by
  rcases h with h | h <;> simp [realMul, h]

theorem realDiv_nan {a b : Real64} (h : isNaN a = true ∨ isNaN b = true) : isNaN (realDiv a b) = true := by
  rcases h with h | h <;> simp [realDiv, h]

/-- A NaN is less than nothing, and nothing is less than it. -/
theorem realLt_nan {a b : Real64} (h : isNaN a = true ∨ isNaN b = true) : realLt a b = false := by
  rcases h with h | h <;> simp [realLt, h]

end Sys2Proof.Machine
end

