-- ==== Sys2Proof/Laws/Num.lean ====
section
/-! SUPPORT. The operations of the configuration's `Num` are binary64's where it is the reference (44_kernels R204),
and every `angle` is `angleWith` some real (93 U14). -/

namespace Sys2Proof.Machine

variable {c : Config} (h : c.num = .reference) (a b : Real64)
include h

theorem numAdd_reference : numAdd c a b = realAdd a b := by simp [numAdd, h]

theorem numSub_reference : numSub c a b = realSub a b := by simp [numSub, h]

theorem numMul_reference : numMul c a b = realMul a b := by simp [numMul, h]

theorem numDiv_reference : numDiv c a b = realDiv a b := by simp [numDiv, h]

theorem numLt_reference : numLt c a b = realLt a b := by simp [numLt, h]

theorem numEq_reference : numEq c a b = realEq a b := by simp [numEq, h]

omit h

theorem angle_eq_angleWith (c : Config) (z : Cplx) : ∃ free, angle c z = angleWith free z := by
  unfold angle
  cases c.angle with
  | reference => exact ⟨_, rfl⟩
  | other id => exact ⟨_, rfl⟩

/-- No `angle` leaves the range, but for an argument with a NaN (44_kernels R200). -/
theorem inAngleRange_angleWith (free : Real64) (z : Cplx) (re : isNaN z.re = false) (im : isNaN z.im = false) :
    inAngleRange (angleWith free z) = true := by
  simp only [angleWith, re, im, Bool.or_self, Bool.false_eq_true, if_false]
  repeat' split
  any_goals decide +kernel
  assumption

end Sys2Proof.Machine
end

