-- ==== Sys2Proof/Laws/State.lean ====
section
/-! SUPPORT. One lemma per field per update of the state: every field after every named update. -/

namespace Sys2Proof.Machine

/-- A state after a pull: `k` samples consumed, `EXHAUSTED` is `ex`, and the Sampler has moved on to `as` and
`g`. -/
def pullEffect (k : Nat) (ex : Bool) (as : List PullAnswer) (g : Nat) (s : State) : State :=
  { s with pulled := s.pulled + k, exhausted := ex, samplerIn := as, samplerState := g }

/-- A state after the tuples `ts` are pushed, and the sink has moved on to `as` and `g`. -/
def pushEffect (ts : List BitTuple) (as : List PushAnswer) (g : Nat) (s : State) : State :=
  { s with out := s.out ++ ts, bitcnt := s.bitcnt + BitVec.ofNat 64 (ts.length * s.cfg.bps),
           sinkIn := as, sinkState := g }

variable (s : State)

/-! Fault entry (60_exceptions R226). -/

@[simp] theorem raiseFault_cfg (c : Cause) : (raiseFault c s).cfg = s.cfg := rfl
@[simp] theorem raiseFault_mode (c : Cause) : (raiseFault c s).mode = .failed := rfl
@[simp] theorem raiseFault_eqValid (c : Cause) : (raiseFault c s).eqValid = s.eqValid := rfl
@[simp] theorem raiseFault_exhausted (c : Cause) : (raiseFault c s).exhausted = s.exhausted := rfl
@[simp] theorem raiseFault_cause (c : Cause) : (raiseFault c s).cause = c := rfl
@[simp] theorem raiseFault_freq (c : Cause) : (raiseFault c s).freq = s.freq := rfl
@[simp] theorem raiseFault_offset (c : Cause) : (raiseFault c s).offset = s.offset := rfl
@[simp] theorem raiseFault_symcnt (c : Cause) : (raiseFault c s).symcnt = s.symcnt := rfl
@[simp] theorem raiseFault_err (c : Cause) : (raiseFault c s).err = s.err := rfl
@[simp] theorem raiseFault_blktot (c : Cause) : (raiseFault c s).blktot = s.blktot := rfl
@[simp] theorem raiseFault_bitcnt (c : Cause) : (raiseFault c s).bitcnt = s.bitcnt := rfl
@[simp] theorem raiseFault_ncorr (c : Cause) : (raiseFault c s).ncorr = s.ncorr := rfl
@[simp] theorem raiseFault_lasterr (c : Cause) : (raiseFault c s).lasterr = s.lasterr := rfl
@[simp] theorem raiseFault_h (c : Cause) : (raiseFault c s).h = s.h := rfl
@[simp] theorem raiseFault_trainerr (c : Cause) : (raiseFault c s).trainerr = s.trainerr := rfl
@[simp] theorem raiseFault_out (c : Cause) : (raiseFault c s).out = s.out := rfl
@[simp] theorem raiseFault_pulled (c : Cause) : (raiseFault c s).pulled = s.pulled := rfl
@[simp] theorem raiseFault_run (c : Cause) : (raiseFault c s).run = none := rfl
@[simp] theorem raiseFault_cmds (c : Cause) : (raiseFault c s).cmds = s.cmds := rfl
@[simp] theorem raiseFault_resp (c : Cause) : (raiseFault c s).resp = s.resp := rfl
@[simp] theorem raiseFault_resetIn (c : Cause) : (raiseFault c s).resetIn = s.resetIn := rfl
@[simp] theorem raiseFault_samplerIn (c : Cause) : (raiseFault c s).samplerIn = s.samplerIn := rfl
@[simp] theorem raiseFault_samplerState (c : Cause) : (raiseFault c s).samplerState = s.samplerState := rfl
@[simp] theorem raiseFault_sinkIn (c : Cause) : (raiseFault c s).sinkIn = s.sinkIn := rfl
@[simp] theorem raiseFault_sinkState (c : Cause) : (raiseFault c s).sinkState = s.sinkState := rfl

/-! A response (20_memory R66). -/

@[simp] theorem respond_cfg (v : Word64) : (respond v s).cfg = s.cfg := rfl
@[simp] theorem respond_mode (v : Word64) : (respond v s).mode = s.mode := rfl
@[simp] theorem respond_eqValid (v : Word64) : (respond v s).eqValid = s.eqValid := rfl
@[simp] theorem respond_exhausted (v : Word64) : (respond v s).exhausted = s.exhausted := rfl
@[simp] theorem respond_cause (v : Word64) : (respond v s).cause = s.cause := rfl
@[simp] theorem respond_freq (v : Word64) : (respond v s).freq = s.freq := rfl
@[simp] theorem respond_offset (v : Word64) : (respond v s).offset = s.offset := rfl
@[simp] theorem respond_symcnt (v : Word64) : (respond v s).symcnt = s.symcnt := rfl
@[simp] theorem respond_err (v : Word64) : (respond v s).err = s.err := rfl
@[simp] theorem respond_blktot (v : Word64) : (respond v s).blktot = s.blktot := rfl
@[simp] theorem respond_bitcnt (v : Word64) : (respond v s).bitcnt = s.bitcnt := rfl
@[simp] theorem respond_ncorr (v : Word64) : (respond v s).ncorr = s.ncorr := rfl
@[simp] theorem respond_lasterr (v : Word64) : (respond v s).lasterr = s.lasterr := rfl
@[simp] theorem respond_h (v : Word64) : (respond v s).h = s.h := rfl
@[simp] theorem respond_trainerr (v : Word64) : (respond v s).trainerr = s.trainerr := rfl
@[simp] theorem respond_out (v : Word64) : (respond v s).out = s.out := rfl
@[simp] theorem respond_pulled (v : Word64) : (respond v s).pulled = s.pulled := rfl
@[simp] theorem respond_run (v : Word64) : (respond v s).run = s.run := rfl
@[simp] theorem respond_cmds (v : Word64) : (respond v s).cmds = s.cmds := rfl
@[simp] theorem respond_resp (v : Word64) : (respond v s).resp = s.resp ++ [v] := rfl
@[simp] theorem respond_resetIn (v : Word64) : (respond v s).resetIn = s.resetIn := rfl
@[simp] theorem respond_samplerIn (v : Word64) : (respond v s).samplerIn = s.samplerIn := rfl
@[simp] theorem respond_samplerState (v : Word64) : (respond v s).samplerState = s.samplerState := rfl
@[simp] theorem respond_sinkIn (v : Word64) : (respond v s).sinkIn = s.sinkIn := rfl
@[simp] theorem respond_sinkState (v : Word64) : (respond v s).sinkState = s.sinkState := rfl

/-! Exhaustion (20_memory R63). -/

@[simp] theorem setExhausted_cfg : (setExhausted s).cfg = s.cfg := rfl
@[simp] theorem setExhausted_mode : (setExhausted s).mode = s.mode := rfl
@[simp] theorem setExhausted_eqValid : (setExhausted s).eqValid = s.eqValid := rfl
@[simp] theorem setExhausted_exhausted : (setExhausted s).exhausted = true := rfl
@[simp] theorem setExhausted_cause : (setExhausted s).cause = s.cause := rfl
@[simp] theorem setExhausted_freq : (setExhausted s).freq = s.freq := rfl
@[simp] theorem setExhausted_offset : (setExhausted s).offset = s.offset := rfl
@[simp] theorem setExhausted_symcnt : (setExhausted s).symcnt = s.symcnt := rfl
@[simp] theorem setExhausted_err : (setExhausted s).err = s.err := rfl
@[simp] theorem setExhausted_blktot : (setExhausted s).blktot = s.blktot := rfl
@[simp] theorem setExhausted_bitcnt : (setExhausted s).bitcnt = s.bitcnt := rfl
@[simp] theorem setExhausted_ncorr : (setExhausted s).ncorr = s.ncorr := rfl
@[simp] theorem setExhausted_lasterr : (setExhausted s).lasterr = s.lasterr := rfl
@[simp] theorem setExhausted_h : (setExhausted s).h = s.h := rfl
@[simp] theorem setExhausted_trainerr : (setExhausted s).trainerr = s.trainerr := rfl
@[simp] theorem setExhausted_out : (setExhausted s).out = s.out := rfl
@[simp] theorem setExhausted_pulled : (setExhausted s).pulled = s.pulled := rfl
@[simp] theorem setExhausted_run : (setExhausted s).run = s.run := rfl
@[simp] theorem setExhausted_cmds : (setExhausted s).cmds = s.cmds := rfl
@[simp] theorem setExhausted_resp : (setExhausted s).resp = s.resp := rfl
@[simp] theorem setExhausted_resetIn : (setExhausted s).resetIn = s.resetIn := rfl
@[simp] theorem setExhausted_samplerIn : (setExhausted s).samplerIn = s.samplerIn := rfl
@[simp] theorem setExhausted_samplerState : (setExhausted s).samplerState = s.samplerState := rfl
@[simp] theorem setExhausted_sinkIn : (setExhausted s).sinkIn = s.sinkIn := rfl
@[simp] theorem setExhausted_sinkState : (setExhausted s).sinkState = s.sinkState := rfl

/-! A new session (40_host_commands R124). -/

@[simp] theorem sessionReset_cfg : (sessionReset s).cfg = s.cfg := rfl
@[simp] theorem sessionReset_mode : (sessionReset s).mode = .pre := rfl
@[simp] theorem sessionReset_eqValid : (sessionReset s).eqValid = false := rfl
@[simp] theorem sessionReset_exhausted : (sessionReset s).exhausted = false := rfl
@[simp] theorem sessionReset_cause : (sessionReset s).cause = .none := rfl
@[simp] theorem sessionReset_freq : (sessionReset s).freq = realOne := rfl
@[simp] theorem sessionReset_offset : (sessionReset s).offset = realPosZero := rfl
@[simp] theorem sessionReset_symcnt : (sessionReset s).symcnt = 0 := rfl
@[simp] theorem sessionReset_err : (sessionReset s).err = [] := rfl
@[simp] theorem sessionReset_blktot : (sessionReset s).blktot = 0 := rfl
@[simp] theorem sessionReset_bitcnt : (sessionReset s).bitcnt = 0 := rfl
@[simp] theorem sessionReset_ncorr : (sessionReset s).ncorr = 0 := rfl
@[simp] theorem sessionReset_lasterr : (sessionReset s).lasterr = realPosZero := rfl
@[simp] theorem sessionReset_h : (sessionReset s).h = [] := rfl
@[simp] theorem sessionReset_trainerr : (sessionReset s).trainerr = 0 := rfl
@[simp] theorem sessionReset_out : (sessionReset s).out = [] := rfl
@[simp] theorem sessionReset_pulled : (sessionReset s).pulled = 0 := rfl
@[simp] theorem sessionReset_run : (sessionReset s).run = none := rfl
@[simp] theorem sessionReset_cmds : (sessionReset s).cmds = s.cmds := rfl
@[simp] theorem sessionReset_resp : (sessionReset s).resp = s.resp := rfl
@[simp] theorem sessionReset_resetIn : (sessionReset s).resetIn = s.resetIn := rfl
@[simp] theorem sessionReset_samplerIn : (sessionReset s).samplerIn = s.samplerIn := rfl
@[simp] theorem sessionReset_samplerState : (sessionReset s).samplerState = s.samplerState := rfl
@[simp] theorem sessionReset_sinkIn : (sessionReset s).sinkIn = s.sinkIn := rfl
@[simp] theorem sessionReset_sinkState : (sessionReset s).sinkState = s.sinkState := rfl

/-! The reset input (70_reset R250). -/

@[simp] theorem resetInput_cfg : (resetInput s).cfg = s.cfg := rfl
@[simp] theorem resetInput_mode : (resetInput s).mode = .pre := rfl
@[simp] theorem resetInput_eqValid : (resetInput s).eqValid = false := rfl
@[simp] theorem resetInput_exhausted : (resetInput s).exhausted = false := rfl
@[simp] theorem resetInput_cause : (resetInput s).cause = .none := rfl
@[simp] theorem resetInput_freq : (resetInput s).freq = realOne := rfl
@[simp] theorem resetInput_offset : (resetInput s).offset = realPosZero := rfl
@[simp] theorem resetInput_symcnt : (resetInput s).symcnt = 0 := rfl
@[simp] theorem resetInput_err : (resetInput s).err = [] := rfl
@[simp] theorem resetInput_blktot : (resetInput s).blktot = 0 := rfl
@[simp] theorem resetInput_bitcnt : (resetInput s).bitcnt = 0 := rfl
@[simp] theorem resetInput_ncorr : (resetInput s).ncorr = 0 := rfl
@[simp] theorem resetInput_lasterr : (resetInput s).lasterr = realPosZero := rfl
@[simp] theorem resetInput_h : (resetInput s).h = [] := rfl
@[simp] theorem resetInput_trainerr : (resetInput s).trainerr = 0 := rfl
@[simp] theorem resetInput_out : (resetInput s).out = [] := rfl
@[simp] theorem resetInput_pulled : (resetInput s).pulled = 0 := rfl
@[simp] theorem resetInput_run : (resetInput s).run = none := rfl
@[simp] theorem resetInput_cmds : (resetInput s).cmds = [] := rfl
@[simp] theorem resetInput_resp : (resetInput s).resp = s.resp := rfl
@[simp] theorem resetInput_resetIn : (resetInput s).resetIn = false := rfl
@[simp] theorem resetInput_samplerIn : (resetInput s).samplerIn = s.samplerIn := rfl
@[simp] theorem resetInput_samplerState : (resetInput s).samplerState = s.samplerState := rfl
@[simp] theorem resetInput_sinkIn : (resetInput s).sinkIn = s.sinkIn := rfl
@[simp] theorem resetInput_sinkState : (resetInput s).sinkState = s.sinkState := rfl

/-! FADJ's effect (40_host_commands R122). -/

@[simp] theorem adjustFreq_cfg (delta : Real64) : (adjustFreq delta s).cfg = s.cfg := rfl
@[simp] theorem adjustFreq_mode (delta : Real64) : (adjustFreq delta s).mode = .training := rfl
@[simp] theorem adjustFreq_eqValid (delta : Real64) : (adjustFreq delta s).eqValid = s.eqValid := rfl
@[simp] theorem adjustFreq_exhausted (delta : Real64) : (adjustFreq delta s).exhausted = s.exhausted := rfl
@[simp] theorem adjustFreq_cause (delta : Real64) : (adjustFreq delta s).cause = s.cause := rfl
@[simp] theorem adjustFreq_freq (delta : Real64) : (adjustFreq delta s).freq = numSub s.cfg s.freq delta := rfl
@[simp] theorem adjustFreq_offset (delta : Real64) : (adjustFreq delta s).offset = s.offset := rfl
@[simp] theorem adjustFreq_symcnt (delta : Real64) : (adjustFreq delta s).symcnt = s.symcnt := rfl
@[simp] theorem adjustFreq_err (delta : Real64) : (adjustFreq delta s).err = s.err := rfl
@[simp] theorem adjustFreq_blktot (delta : Real64) : (adjustFreq delta s).blktot = s.blktot := rfl
@[simp] theorem adjustFreq_bitcnt (delta : Real64) : (adjustFreq delta s).bitcnt = s.bitcnt := rfl
@[simp] theorem adjustFreq_ncorr (delta : Real64) : (adjustFreq delta s).ncorr = s.ncorr := rfl
@[simp] theorem adjustFreq_lasterr (delta : Real64) : (adjustFreq delta s).lasterr = s.lasterr := rfl
@[simp] theorem adjustFreq_h (delta : Real64) : (adjustFreq delta s).h = s.h := rfl
@[simp] theorem adjustFreq_trainerr (delta : Real64) : (adjustFreq delta s).trainerr = s.trainerr := rfl
@[simp] theorem adjustFreq_out (delta : Real64) : (adjustFreq delta s).out = s.out := rfl
@[simp] theorem adjustFreq_pulled (delta : Real64) : (adjustFreq delta s).pulled = s.pulled := rfl
@[simp] theorem adjustFreq_run (delta : Real64) : (adjustFreq delta s).run = s.run := rfl
@[simp] theorem adjustFreq_cmds (delta : Real64) : (adjustFreq delta s).cmds = s.cmds := rfl
@[simp] theorem adjustFreq_resp (delta : Real64) : (adjustFreq delta s).resp = s.resp := rfl
@[simp] theorem adjustFreq_resetIn (delta : Real64) : (adjustFreq delta s).resetIn = s.resetIn := rfl
@[simp] theorem adjustFreq_samplerIn (delta : Real64) : (adjustFreq delta s).samplerIn = s.samplerIn := rfl
@[simp] theorem adjustFreq_samplerState (delta : Real64) :
    (adjustFreq delta s).samplerState = s.samplerState := rfl
@[simp] theorem adjustFreq_sinkIn (delta : Real64) : (adjustFreq delta s).sinkIn = s.sinkIn := rfl
@[simp] theorem adjustFreq_sinkState (delta : Real64) : (adjustFreq delta s).sinkState = s.sinkState := rfl

/-! Phase A of a block (42_demodulator R166). -/

@[simp] theorem accumulate_cfg (zs : List Cplx) : (accumulate zs s).cfg = s.cfg := rfl
@[simp] theorem accumulate_mode (zs : List Cplx) : (accumulate zs s).mode = s.mode := rfl
@[simp] theorem accumulate_eqValid (zs : List Cplx) : (accumulate zs s).eqValid = s.eqValid := rfl
@[simp] theorem accumulate_exhausted (zs : List Cplx) : (accumulate zs s).exhausted = s.exhausted := rfl
@[simp] theorem accumulate_cause (zs : List Cplx) : (accumulate zs s).cause = s.cause := rfl
@[simp] theorem accumulate_freq (zs : List Cplx) : (accumulate zs s).freq = s.freq := rfl
@[simp] theorem accumulate_offset (zs : List Cplx) : (accumulate zs s).offset = s.offset := rfl
@[simp] theorem accumulate_symcnt (zs : List Cplx) : (accumulate zs s).symcnt = s.symcnt := rfl
@[simp] theorem accumulate_err (zs : List Cplx) :
    (accumulate zs s).err = s.err ++ zs.map (symbolRatio s.cfg) := rfl
@[simp] theorem accumulate_blktot (zs : List Cplx) : (accumulate zs s).blktot = s.blktot := rfl
@[simp] theorem accumulate_bitcnt (zs : List Cplx) : (accumulate zs s).bitcnt = s.bitcnt := rfl
@[simp] theorem accumulate_ncorr (zs : List Cplx) : (accumulate zs s).ncorr = s.ncorr := rfl
@[simp] theorem accumulate_lasterr (zs : List Cplx) : (accumulate zs s).lasterr = s.lasterr := rfl
@[simp] theorem accumulate_h (zs : List Cplx) : (accumulate zs s).h = s.h := rfl
@[simp] theorem accumulate_trainerr (zs : List Cplx) : (accumulate zs s).trainerr = s.trainerr := rfl
@[simp] theorem accumulate_out (zs : List Cplx) : (accumulate zs s).out = s.out := rfl
@[simp] theorem accumulate_pulled (zs : List Cplx) : (accumulate zs s).pulled = s.pulled := rfl
@[simp] theorem accumulate_run (zs : List Cplx) : (accumulate zs s).run = s.run := rfl
@[simp] theorem accumulate_cmds (zs : List Cplx) : (accumulate zs s).cmds = s.cmds := rfl
@[simp] theorem accumulate_resp (zs : List Cplx) : (accumulate zs s).resp = s.resp := rfl
@[simp] theorem accumulate_resetIn (zs : List Cplx) : (accumulate zs s).resetIn = s.resetIn := rfl
@[simp] theorem accumulate_samplerIn (zs : List Cplx) : (accumulate zs s).samplerIn = s.samplerIn := rfl
@[simp] theorem accumulate_samplerState (zs : List Cplx) : (accumulate zs s).samplerState = s.samplerState := rfl
@[simp] theorem accumulate_sinkIn (zs : List Cplx) : (accumulate zs s).sinkIn = s.sinkIn := rfl
@[simp] theorem accumulate_sinkState (zs : List Cplx) : (accumulate zs s).sinkState = s.sinkState := rfl

/-! The counters of a block (42_demodulator R168). -/

@[simp] theorem countBlock_cfg : (countBlock s).cfg = s.cfg := rfl
@[simp] theorem countBlock_mode : (countBlock s).mode = s.mode := rfl
@[simp] theorem countBlock_eqValid : (countBlock s).eqValid = s.eqValid := rfl
@[simp] theorem countBlock_exhausted : (countBlock s).exhausted = s.exhausted := rfl
@[simp] theorem countBlock_cause : (countBlock s).cause = s.cause := rfl
@[simp] theorem countBlock_freq : (countBlock s).freq = s.freq := rfl
@[simp] theorem countBlock_offset : (countBlock s).offset = s.offset := rfl
@[simp] theorem countBlock_symcnt : (countBlock s).symcnt = s.symcnt + 1 := rfl
@[simp] theorem countBlock_err : (countBlock s).err = s.err := rfl
@[simp] theorem countBlock_blktot : (countBlock s).blktot = s.blktot + 1 := rfl
@[simp] theorem countBlock_bitcnt : (countBlock s).bitcnt = s.bitcnt := rfl
@[simp] theorem countBlock_ncorr : (countBlock s).ncorr = s.ncorr := rfl
@[simp] theorem countBlock_lasterr : (countBlock s).lasterr = s.lasterr := rfl
@[simp] theorem countBlock_h : (countBlock s).h = s.h := rfl
@[simp] theorem countBlock_trainerr : (countBlock s).trainerr = s.trainerr := rfl
@[simp] theorem countBlock_out : (countBlock s).out = s.out := rfl
@[simp] theorem countBlock_pulled : (countBlock s).pulled = s.pulled := rfl
@[simp] theorem countBlock_run : (countBlock s).run = s.run := rfl
@[simp] theorem countBlock_cmds : (countBlock s).cmds = s.cmds := rfl
@[simp] theorem countBlock_resp : (countBlock s).resp = s.resp := rfl
@[simp] theorem countBlock_resetIn : (countBlock s).resetIn = s.resetIn := rfl
@[simp] theorem countBlock_samplerIn : (countBlock s).samplerIn = s.samplerIn := rfl
@[simp] theorem countBlock_samplerState : (countBlock s).samplerState = s.samplerState := rfl
@[simp] theorem countBlock_sinkIn : (countBlock s).sinkIn = s.sinkIn := rfl
@[simp] theorem countBlock_sinkState : (countBlock s).sinkState = s.sinkState := rfl

/-! The drift correction (43_drift_loop R184). -/

@[simp] theorem driftCorrection_cfg : (driftCorrection s).cfg = s.cfg := rfl
@[simp] theorem driftCorrection_mode : (driftCorrection s).mode = s.mode := rfl
@[simp] theorem driftCorrection_eqValid : (driftCorrection s).eqValid = s.eqValid := rfl
@[simp] theorem driftCorrection_exhausted : (driftCorrection s).exhausted = s.exhausted := rfl
@[simp] theorem driftCorrection_cause : (driftCorrection s).cause = s.cause := rfl
@[simp] theorem driftCorrection_freq :
    (driftCorrection s).freq = numSub s.cfg s.freq
      (numDiv s.cfg (numMul s.cfg s.cfg.kfreq (meanPhase s.cfg s.err)) s.cfg.fc) := rfl
@[simp] theorem driftCorrection_offset :
    (driftCorrection s).offset = numSub s.cfg s.offset (meanPhase s.cfg s.err) := rfl
@[simp] theorem driftCorrection_symcnt : (driftCorrection s).symcnt = 0 := rfl
@[simp] theorem driftCorrection_err : (driftCorrection s).err = [] := rfl
@[simp] theorem driftCorrection_blktot : (driftCorrection s).blktot = s.blktot := rfl
@[simp] theorem driftCorrection_bitcnt : (driftCorrection s).bitcnt = s.bitcnt := rfl
@[simp] theorem driftCorrection_ncorr : (driftCorrection s).ncorr = s.ncorr + 1 := rfl
@[simp] theorem driftCorrection_lasterr : (driftCorrection s).lasterr = meanPhase s.cfg s.err := rfl
@[simp] theorem driftCorrection_h : (driftCorrection s).h = s.h := rfl
@[simp] theorem driftCorrection_trainerr : (driftCorrection s).trainerr = s.trainerr := rfl
@[simp] theorem driftCorrection_out : (driftCorrection s).out = s.out := rfl
@[simp] theorem driftCorrection_pulled : (driftCorrection s).pulled = s.pulled := rfl
@[simp] theorem driftCorrection_run : (driftCorrection s).run = s.run := rfl
@[simp] theorem driftCorrection_cmds : (driftCorrection s).cmds = s.cmds := rfl
@[simp] theorem driftCorrection_resp : (driftCorrection s).resp = s.resp := rfl
@[simp] theorem driftCorrection_resetIn : (driftCorrection s).resetIn = s.resetIn := rfl
@[simp] theorem driftCorrection_samplerIn : (driftCorrection s).samplerIn = s.samplerIn := rfl
@[simp] theorem driftCorrection_samplerState : (driftCorrection s).samplerState = s.samplerState := rfl
@[simp] theorem driftCorrection_sinkIn : (driftCorrection s).sinkIn = s.sinkIn := rfl
@[simp] theorem driftCorrection_sinkState : (driftCorrection s).sinkState = s.sinkState := rfl

/-! A pull (20_memory R62). -/

@[simp] theorem pullEffect_cfg (k : Nat) (ex : Bool) (as : List PullAnswer) (g : Nat) :
    (pullEffect k ex as g s).cfg = s.cfg := rfl
@[simp] theorem pullEffect_mode (k : Nat) (ex : Bool) (as : List PullAnswer) (g : Nat) :
    (pullEffect k ex as g s).mode = s.mode := rfl
@[simp] theorem pullEffect_eqValid (k : Nat) (ex : Bool) (as : List PullAnswer) (g : Nat) :
    (pullEffect k ex as g s).eqValid = s.eqValid := rfl
@[simp] theorem pullEffect_exhausted (k : Nat) (ex : Bool) (as : List PullAnswer) (g : Nat) :
    (pullEffect k ex as g s).exhausted = ex := rfl
@[simp] theorem pullEffect_cause (k : Nat) (ex : Bool) (as : List PullAnswer) (g : Nat) :
    (pullEffect k ex as g s).cause = s.cause := rfl
@[simp] theorem pullEffect_freq (k : Nat) (ex : Bool) (as : List PullAnswer) (g : Nat) :
    (pullEffect k ex as g s).freq = s.freq := rfl
@[simp] theorem pullEffect_offset (k : Nat) (ex : Bool) (as : List PullAnswer) (g : Nat) :
    (pullEffect k ex as g s).offset = s.offset := rfl
@[simp] theorem pullEffect_symcnt (k : Nat) (ex : Bool) (as : List PullAnswer) (g : Nat) :
    (pullEffect k ex as g s).symcnt = s.symcnt := rfl
@[simp] theorem pullEffect_err (k : Nat) (ex : Bool) (as : List PullAnswer) (g : Nat) :
    (pullEffect k ex as g s).err = s.err := rfl
@[simp] theorem pullEffect_blktot (k : Nat) (ex : Bool) (as : List PullAnswer) (g : Nat) :
    (pullEffect k ex as g s).blktot = s.blktot := rfl
@[simp] theorem pullEffect_bitcnt (k : Nat) (ex : Bool) (as : List PullAnswer) (g : Nat) :
    (pullEffect k ex as g s).bitcnt = s.bitcnt := rfl
@[simp] theorem pullEffect_ncorr (k : Nat) (ex : Bool) (as : List PullAnswer) (g : Nat) :
    (pullEffect k ex as g s).ncorr = s.ncorr := rfl
@[simp] theorem pullEffect_lasterr (k : Nat) (ex : Bool) (as : List PullAnswer) (g : Nat) :
    (pullEffect k ex as g s).lasterr = s.lasterr := rfl
@[simp] theorem pullEffect_h (k : Nat) (ex : Bool) (as : List PullAnswer) (g : Nat) :
    (pullEffect k ex as g s).h = s.h := rfl
@[simp] theorem pullEffect_trainerr (k : Nat) (ex : Bool) (as : List PullAnswer) (g : Nat) :
    (pullEffect k ex as g s).trainerr = s.trainerr := rfl
@[simp] theorem pullEffect_out (k : Nat) (ex : Bool) (as : List PullAnswer) (g : Nat) :
    (pullEffect k ex as g s).out = s.out := rfl
@[simp] theorem pullEffect_pulled (k : Nat) (ex : Bool) (as : List PullAnswer) (g : Nat) :
    (pullEffect k ex as g s).pulled = s.pulled + k := rfl
@[simp] theorem pullEffect_run (k : Nat) (ex : Bool) (as : List PullAnswer) (g : Nat) :
    (pullEffect k ex as g s).run = s.run := rfl
@[simp] theorem pullEffect_cmds (k : Nat) (ex : Bool) (as : List PullAnswer) (g : Nat) :
    (pullEffect k ex as g s).cmds = s.cmds := rfl
@[simp] theorem pullEffect_resp (k : Nat) (ex : Bool) (as : List PullAnswer) (g : Nat) :
    (pullEffect k ex as g s).resp = s.resp := rfl
@[simp] theorem pullEffect_resetIn (k : Nat) (ex : Bool) (as : List PullAnswer) (g : Nat) :
    (pullEffect k ex as g s).resetIn = s.resetIn := rfl
@[simp] theorem pullEffect_samplerIn (k : Nat) (ex : Bool) (as : List PullAnswer) (g : Nat) :
    (pullEffect k ex as g s).samplerIn = as := rfl
@[simp] theorem pullEffect_samplerState (k : Nat) (ex : Bool) (as : List PullAnswer) (g : Nat) :
    (pullEffect k ex as g s).samplerState = g := rfl
@[simp] theorem pullEffect_sinkIn (k : Nat) (ex : Bool) (as : List PullAnswer) (g : Nat) :
    (pullEffect k ex as g s).sinkIn = s.sinkIn := rfl
@[simp] theorem pullEffect_sinkState (k : Nat) (ex : Bool) (as : List PullAnswer) (g : Nat) :
    (pullEffect k ex as g s).sinkState = s.sinkState := rfl

/-! A row of pushes (20_memory R64). -/

@[simp] theorem pushEffect_cfg (ts : List BitTuple) (as : List PushAnswer) (g : Nat) :
    (pushEffect ts as g s).cfg = s.cfg := rfl
@[simp] theorem pushEffect_mode (ts : List BitTuple) (as : List PushAnswer) (g : Nat) :
    (pushEffect ts as g s).mode = s.mode := rfl
@[simp] theorem pushEffect_eqValid (ts : List BitTuple) (as : List PushAnswer) (g : Nat) :
    (pushEffect ts as g s).eqValid = s.eqValid := rfl
@[simp] theorem pushEffect_exhausted (ts : List BitTuple) (as : List PushAnswer) (g : Nat) :
    (pushEffect ts as g s).exhausted = s.exhausted := rfl
@[simp] theorem pushEffect_cause (ts : List BitTuple) (as : List PushAnswer) (g : Nat) :
    (pushEffect ts as g s).cause = s.cause := rfl
@[simp] theorem pushEffect_freq (ts : List BitTuple) (as : List PushAnswer) (g : Nat) :
    (pushEffect ts as g s).freq = s.freq := rfl
@[simp] theorem pushEffect_offset (ts : List BitTuple) (as : List PushAnswer) (g : Nat) :
    (pushEffect ts as g s).offset = s.offset := rfl
@[simp] theorem pushEffect_symcnt (ts : List BitTuple) (as : List PushAnswer) (g : Nat) :
    (pushEffect ts as g s).symcnt = s.symcnt := rfl
@[simp] theorem pushEffect_err (ts : List BitTuple) (as : List PushAnswer) (g : Nat) :
    (pushEffect ts as g s).err = s.err := rfl
@[simp] theorem pushEffect_blktot (ts : List BitTuple) (as : List PushAnswer) (g : Nat) :
    (pushEffect ts as g s).blktot = s.blktot := rfl
@[simp] theorem pushEffect_bitcnt (ts : List BitTuple) (as : List PushAnswer) (g : Nat) :
    (pushEffect ts as g s).bitcnt = s.bitcnt + BitVec.ofNat 64 (ts.length * s.cfg.bps) := rfl
@[simp] theorem pushEffect_ncorr (ts : List BitTuple) (as : List PushAnswer) (g : Nat) :
    (pushEffect ts as g s).ncorr = s.ncorr := rfl
@[simp] theorem pushEffect_lasterr (ts : List BitTuple) (as : List PushAnswer) (g : Nat) :
    (pushEffect ts as g s).lasterr = s.lasterr := rfl
@[simp] theorem pushEffect_h (ts : List BitTuple) (as : List PushAnswer) (g : Nat) :
    (pushEffect ts as g s).h = s.h := rfl
@[simp] theorem pushEffect_trainerr (ts : List BitTuple) (as : List PushAnswer) (g : Nat) :
    (pushEffect ts as g s).trainerr = s.trainerr := rfl
@[simp] theorem pushEffect_out (ts : List BitTuple) (as : List PushAnswer) (g : Nat) :
    (pushEffect ts as g s).out = s.out ++ ts := rfl
@[simp] theorem pushEffect_pulled (ts : List BitTuple) (as : List PushAnswer) (g : Nat) :
    (pushEffect ts as g s).pulled = s.pulled := rfl
@[simp] theorem pushEffect_run (ts : List BitTuple) (as : List PushAnswer) (g : Nat) :
    (pushEffect ts as g s).run = s.run := rfl
@[simp] theorem pushEffect_cmds (ts : List BitTuple) (as : List PushAnswer) (g : Nat) :
    (pushEffect ts as g s).cmds = s.cmds := rfl
@[simp] theorem pushEffect_resp (ts : List BitTuple) (as : List PushAnswer) (g : Nat) :
    (pushEffect ts as g s).resp = s.resp := rfl
@[simp] theorem pushEffect_resetIn (ts : List BitTuple) (as : List PushAnswer) (g : Nat) :
    (pushEffect ts as g s).resetIn = s.resetIn := rfl
@[simp] theorem pushEffect_samplerIn (ts : List BitTuple) (as : List PushAnswer) (g : Nat) :
    (pushEffect ts as g s).samplerIn = s.samplerIn := rfl
@[simp] theorem pushEffect_samplerState (ts : List BitTuple) (as : List PushAnswer) (g : Nat) :
    (pushEffect ts as g s).samplerState = s.samplerState := rfl
@[simp] theorem pushEffect_sinkIn (ts : List BitTuple) (as : List PushAnswer) (g : Nat) :
    (pushEffect ts as g s).sinkIn = as := rfl
@[simp] theorem pushEffect_sinkState (ts : List BitTuple) (as : List PushAnswer) (g : Nat) :
    (pushEffect ts as g s).sinkState = g := rfl

/-! Words issued first (log 14). -/

@[simp] theorem issueFirst_cfg (ws : List Word) : (issueFirst ws s).cfg = s.cfg := rfl
@[simp] theorem issueFirst_mode (ws : List Word) : (issueFirst ws s).mode = s.mode := rfl
@[simp] theorem issueFirst_eqValid (ws : List Word) : (issueFirst ws s).eqValid = s.eqValid := rfl
@[simp] theorem issueFirst_exhausted (ws : List Word) : (issueFirst ws s).exhausted = s.exhausted := rfl
@[simp] theorem issueFirst_cause (ws : List Word) : (issueFirst ws s).cause = s.cause := rfl
@[simp] theorem issueFirst_freq (ws : List Word) : (issueFirst ws s).freq = s.freq := rfl
@[simp] theorem issueFirst_offset (ws : List Word) : (issueFirst ws s).offset = s.offset := rfl
@[simp] theorem issueFirst_symcnt (ws : List Word) : (issueFirst ws s).symcnt = s.symcnt := rfl
@[simp] theorem issueFirst_err (ws : List Word) : (issueFirst ws s).err = s.err := rfl
@[simp] theorem issueFirst_blktot (ws : List Word) : (issueFirst ws s).blktot = s.blktot := rfl
@[simp] theorem issueFirst_bitcnt (ws : List Word) : (issueFirst ws s).bitcnt = s.bitcnt := rfl
@[simp] theorem issueFirst_ncorr (ws : List Word) : (issueFirst ws s).ncorr = s.ncorr := rfl
@[simp] theorem issueFirst_lasterr (ws : List Word) : (issueFirst ws s).lasterr = s.lasterr := rfl
@[simp] theorem issueFirst_h (ws : List Word) : (issueFirst ws s).h = s.h := rfl
@[simp] theorem issueFirst_trainerr (ws : List Word) : (issueFirst ws s).trainerr = s.trainerr := rfl
@[simp] theorem issueFirst_out (ws : List Word) : (issueFirst ws s).out = s.out := rfl
@[simp] theorem issueFirst_pulled (ws : List Word) : (issueFirst ws s).pulled = s.pulled := rfl
@[simp] theorem issueFirst_run (ws : List Word) : (issueFirst ws s).run = none := rfl
@[simp] theorem issueFirst_cmds (ws : List Word) : (issueFirst ws s).cmds = ws ++ s.cmds := rfl
@[simp] theorem issueFirst_resp (ws : List Word) : (issueFirst ws s).resp = s.resp := rfl
@[simp] theorem issueFirst_resetIn (ws : List Word) : (issueFirst ws s).resetIn = false := rfl
@[simp] theorem issueFirst_samplerIn (ws : List Word) : (issueFirst ws s).samplerIn = s.samplerIn := rfl
@[simp] theorem issueFirst_samplerState (ws : List Word) : (issueFirst ws s).samplerState = s.samplerState := rfl
@[simp] theorem issueFirst_sinkIn (ws : List Word) : (issueFirst ws s).sinkIn = s.sinkIn := rfl
@[simp] theorem issueFirst_sinkState (ws : List Word) : (issueFirst ws s).sinkState = s.sinkState := rfl

end Sys2Proof.Machine
end

