-- ==== Sys2Proof/Laws/Ops.lean ====
section
/-! SUPPORT. For each shared operation, what it can do, said once. -/

namespace Sys2Proof.Machine

/-- A fault entry is the only effect of an illegal command, and only outside the terminal modes. -/
theorem illegalCommand_cases (s : State) :
    (s.mode.terminal = true ∧ illegalCommand s = s) ∨
    (s.mode.terminal = false ∧ illegalCommand s = raiseFault .illegalCommand s) := by
  unfold illegalCommand
  cases h : s.mode.terminal <;> simp

/-- A command in a mode: its effect, the illegal-command fault outside the terminal modes, or nothing in one. -/
theorem inMode_cases (i : Instr) (f : State → State) (s : State) :
    (legality i s.mode = .ok ∧ inMode i f s = f s) ∨
    (legality i s.mode = .ill ∧ inMode i f s = raiseFault .illegalCommand s) ∨
    (legality i s.mode = .ign ∧ inMode i f s = s) := by
  unfold inMode
  cases h : legality i s.mode <;> simp

theorem inMode_ok {i : Instr} {s : State} (f : State → State) (h : legality i s.mode = .ok) :
    inMode i f s = f s := by simp [inMode, h]

theorem inMode_ill {i : Instr} {s : State} (f : State → State) (h : legality i s.mode = .ill) :
    inMode i f s = raiseFault .illegalCommand s := by simp [inMode, h]

theorem inMode_ign {i : Instr} {s : State} (f : State → State) (h : legality i s.mode = .ign) :
    inMode i f s = s := by simp [inMode, h]

/-- An ignored command is in a terminal mode, an illegal one in a mode that is not. -/
theorem legality_terminal (i : Instr) (m : Mode) :
    (legality i m = .ign → m.terminal = true) ∧ (legality i m = .ill → m.terminal = false) := by
  cases i <;> cases m <;> simp [legality, Mode.terminal]

/-- Asking the Sampler changes the Sampler only. -/
theorem askSampler_frame (n : Nat) (s : State) :
    ∃ as g, (askSampler n s).2 = { s with samplerIn := as, samplerState := g } := by
  unfold askSampler
  cases s.samplerIn with
  | nil => exact ⟨_, _, rfl⟩
  | cons a as => exact ⟨_, _, rfl⟩

/-- The status `ok`: all samples delivered, every one finite (20_memory R62). -/
theorem pullStatus_ok {n : Nat} {a : PullAnswer} (h : pullStatus n a = .ok) :
    (a.samples.take n).length = n ∧ ∀ x ∈ a.samples.take n, isFinite x = true := by
  simp only [pullStatus] at h
  split at h
  · simp at h
  · rename_i hf
    split at h
    · simp at h
    · rename_i hl
      refine ⟨by have := List.length_take_le n a.samples; omega, ?_⟩
      simpa using (by simpa using hf : a.failed = false ∧ _).2

/-- The status `short`: fewer delivered than asked for (20_memory R62). -/
theorem pullStatus_short {n : Nat} {a : PullAnswer} (h : pullStatus n a = .short) :
    (a.samples.take n).length < n := by
  simp only [pullStatus] at h
  split at h
  · simp at h
  · split at h
    · assumption
    · simp at h

/-- Everything a pull can do (20_memory R62, R63). `as` and `g` are the Sampler's next answers and hidden state,
`k` the samples consumed; `EXHAUSTED` is set by `short` and by nothing else. -/
theorem samplerTake_spec (n : Nat) (s : State) :
    ∃ (xs : List Real64) (st : PullStatus) (k : Nat) (ex : Bool) (as : List PullAnswer) (g : Nat),
      samplerTake n s = (xs, st, pullEffect k ex as g s) ∧ k ≤ n ∧ xs.length = k ∧
      (st = .ok → k = n ∧ ex = s.exhausted ∧ ∀ x ∈ xs, isFinite x = true) ∧
      (st = .short → k < n ∧ ex = true) ∧
      (st = .error → ex = s.exhausted) := by
  unfold samplerTake
  split
  · subst_vars
    exact ⟨[], .ok, 0, s.exhausted, s.samplerIn, s.samplerState, rfl, by simp⟩
  · split
    · rename_i hn he
      exact ⟨[], .short, 0, s.exhausted, s.samplerIn, s.samplerState, rfl, by simp, rfl,
        by simp, fun _ => ⟨by omega, he⟩, by simp⟩
    · obtain ⟨as, g, hs⟩ := askSampler_frame n s
      rw [hs]
      generalize (askSampler n s).1 = a
      have hk : (a.samples.take n).length ≤ n := List.length_take_le n a.samples
      cases h : pullStatus n a with
      | ok =>
        obtain ⟨hl, hf⟩ := pullStatus_ok h
        exact ⟨a.samples.take n, .ok, _, s.exhausted, as, g, by simp only [takeAnswer, h]; rfl, hk, rfl,
          fun _ => ⟨hl, rfl, hf⟩, nofun, nofun⟩
      | short =>
        exact ⟨a.samples.take n, .short, _, true, as, g, by simp only [takeAnswer, h]; rfl, hk, rfl, nofun,
          fun _ => ⟨pullStatus_short h, rfl⟩, nofun⟩
      | error =>
        exact ⟨a.samples.take n, .error, _, s.exhausted, as, g, by simp only [takeAnswer, h]; rfl, hk, rfl,
          nofun, nofun, fun _ => rfl⟩

/-- Asking the sink changes the sink only. -/
theorem askSink_frame (t : BitTuple) (s : State) :
    ∃ as g, (askSink t s).2 = { s with sinkIn := as, sinkState := g } := by
  unfold askSink
  cases s.sinkIn with
  | nil => exact ⟨_, _, rfl⟩
  | cons a as => exact ⟨_, _, rfl⟩

/-- Everything a push can do (20_memory R64). -/
theorem bitPush_spec (t : BitTuple) (s : State) :
    ∃ as g, bitPush t s = (.ok, pushEffect [t] as g s) ∨ bitPush t s = (.error, pushEffect [] as g s) := by
  obtain ⟨as, g, h⟩ := askSink_frame t s
  refine ⟨as, g, ?_⟩
  unfold bitPush
  cases ha : askSink t s with
  | mk a s' =>
    rw [ha] at h
    subst h
    cases a with
    | ok => exact .inl (by simp [pushEffect])
    | error => exact .inr (by simp [pushEffect])

theorem pushEffect_pushEffect (ts us : List BitTuple) (as bs : List PushAnswer) (g k : Nat) (s : State) :
    pushEffect us bs k (pushEffect ts as g s) = pushEffect (ts ++ us) bs k s := by
  simp [pushEffect, Nat.add_mul, BitVec.ofNat_add, BitVec.add_assoc]

/-- Everything a row of pushes can do: the first `j` tuples are out and counted, and nothing else has changed;
all of them exactly when the answer is `ok` (42_demodulator R165, R167). -/
theorem pushAll_spec (ts : List BitTuple) (s : State) :
    ∃ (a : PushAnswer) (j : Nat) (as : List PushAnswer) (g : Nat),
      pushAll ts s = (a, pushEffect (ts.take j) as g s) ∧
      (a = .ok → j = ts.length) ∧ (a = .error → j < ts.length) := by
  induction ts generalizing s with
  | nil => exact ⟨.ok, 0, s.sinkIn, s.sinkState, by simp [pushAll, pushEffect], by simp, by simp⟩
  | cons t ts ih =>
    obtain ⟨as, g, h | h⟩ := bitPush_spec t s
    · obtain ⟨a, j, as', g', he, hok, herr⟩ := ih (pushEffect [t] as g s)
      exact ⟨a, j + 1, as', g', by simp only [pushAll, h, he, pushEffect_pushEffect]; rfl,
        by simpa using hok, by simpa using herr⟩
    · exact ⟨.error, 0, as, g, by simp only [pushAll, h]; rfl, nofun, by simp⟩

/-- Everything a pull of TRAIN can do: go on with `n` finite samples, or one of the two faults
(41_equalizer_trainer R150). -/
theorem trainPull_cases (n : Nat) (f : List Real64 → State → State) (s : State) :
    ∃ (k : Nat) (ex : Bool) (as : List PullAnswer) (g : Nat), k ≤ n ∧
      ((∃ xs, trainPull n f s = f xs (pullEffect k ex as g s) ∧ xs.length = n ∧ k = n ∧ ex = s.exhausted) ∨
       (trainPull n f s = raiseFault .underrun (pullEffect k ex as g s) ∧ ex = true) ∨
       (trainPull n f s = raiseFault .unexpected (pullEffect k ex as g s) ∧ ex = s.exhausted)) := by
  obtain ⟨xs, st, k, ex, as, g, h, hk, hl, hok, hsh, her⟩ := samplerTake_spec n s
  refine ⟨k, ex, as, g, hk, ?_⟩
  simp only [trainPull, h]
  cases st with
  | ok => exact .inl ⟨xs, rfl, hl.trans (hok rfl).1, (hok rfl).1, (hok rfl).2.1⟩
  | short => exact .inr (.inl ⟨rfl, (hsh rfl).2⟩)
  | error => exact .inr (.inr ⟨rfl, her rfl⟩)

/-- Everything TRAIN's gate can do (41_equalizer_trainer R148, R149). -/
theorem trainGate_cases (hnew : List Real64) (e : Nat) (s : State) :
    (e = 0 ∧ trainGate hnew e s =
      { s with trainerr := BitVec.ofNat 32 e, h := hnew, eqValid := true, mode := .demodulating }) ∨
    (e ≠ 0 ∧ trainGate hnew e s = raiseFault .eqValidation { s with trainerr := BitVec.ofNat 32 e }) := by
  unfold trainGate
  by_cases h : e = 0 <;> simp [h]

/-- The trigger: the correction exactly when `SYMCNT` is `baud` (43_drift_loop R183). -/
theorem driftTrigger_cases (s : State) :
    (s.symcnt.toNat = s.cfg.baud ∧ driftTrigger s = driftCorrection s) ∨
    (s.symcnt.toNat ≠ s.cfg.baud ∧ driftTrigger s = s) := by
  unfold driftTrigger
  by_cases h : s.symcnt.toNat = s.cfg.baud <;> simp [h]

@[simp] theorem blockSymbols_length (c : Config) (w : List Real64) : (blockSymbols c w).length = c.ntone := by
  simp [blockSymbols]

/-- Everything one SYM step can do (42_demodulator R160, R161, R167): a whole block, the end of the signal, a
failed pull, or a push that failed after `j` tuples. -/
theorem symStep_cases (s : State) :
    ∃ (k : Nat) (ex : Bool) (as : List PullAnswer) (g : Nat), k ≤ s.cfg.nsym ∧
      ((∃ (w : List Real64) (ps : List PushAnswer) (gs : Nat),
          w.length = s.cfg.nsym ∧ k = s.cfg.nsym ∧ ex = s.exhausted ∧
          symStep s = driftTrigger (countBlock
            (pushEffect ((blockSymbols s.cfg w).map (symbolTuple s.cfg)) ps gs
              (accumulate (blockSymbols s.cfg w) (pullEffect k ex as g s))))) ∨
       (ex = true ∧ k < s.cfg.nsym ∧ symStep s = { pullEffect k ex as g s with mode := .done }) ∨
       (ex = s.exhausted ∧ symStep s = raiseFault .unexpected (pullEffect k ex as g s)) ∨
       (∃ (w : List Real64) (j : Nat) (ps : List PushAnswer) (gs : Nat), j < s.cfg.ntone ∧
          w.length = s.cfg.nsym ∧ k = s.cfg.nsym ∧ ex = s.exhausted ∧
          symStep s = raiseFault .unexpected
            (pushEffect (((blockSymbols s.cfg w).map (symbolTuple s.cfg)).take j) ps gs
              (accumulate (blockSymbols s.cfg w) (pullEffect k ex as g s))))) := by
  obtain ⟨w, st, k, ex, as, g, h, hk, hl, hok, hsh, her⟩ := samplerTake_spec s.cfg.nsym s
  refine ⟨k, ex, as, g, hk, ?_⟩
  simp only [symStep, h]
  cases st with
  | short => exact .inr (.inl ⟨(hsh rfl).2, (hsh rfl).1, rfl⟩)
  | error => exact .inr (.inr (.inl ⟨her rfl, rfl⟩))
  | ok =>
    obtain ⟨hkn, hex, -⟩ := hok rfl
    simp only [demodBlock, pushBlock, accumulate_cfg, pullEffect_cfg]
    obtain ⟨a, j, ps, gs, hp, hj, hje⟩ := pushAll_spec
      ((blockSymbols s.cfg w).map (symbolTuple s.cfg))
      (accumulate (blockSymbols s.cfg w) (pullEffect k ex as g s))
    rw [hp]
    cases a with
    | ok => exact .inl ⟨w, ps, gs, hl.trans hkn, hkn, hex, by rw [hj rfl, List.take_length]⟩
    | error =>
      exact .inr (.inr (.inr ⟨w, j, ps, gs, by simpa using hje rfl, hl.trans hkn, hkn, hex, rfl⟩))

/-- Everything a turn of RUN's loop can do (42_demodulator R169). -/
theorem runTurn_cases (n i : BitVec 24) (s : State) :
    (runGoesOn n i s = false ∧ runTurn n i s = { s with run := none }) ∨
    (runGoesOn n i s = true ∧ ∃ r, runTurn n i s = { symStep s with run := r } ∧
      ((runGoesOn n (if n = 0 then 0 else i + 1) (symStep s) = true ∧
          r = some ⟨n, if n = 0 then 0 else i + 1⟩) ∨
        (runGoesOn n (if n = 0 then 0 else i + 1) (symStep s) = false ∧ r = none))) := by
  unfold runTurn
  cases h : runGoesOn n i s with
  | false => exact .inl ⟨rfl, rfl⟩
  | true =>
    refine .inr ⟨rfl, ?_⟩
    simp only [runAfter, if_true]
    cases h2 : runGoesOn n (if n = 0 then 0 else i + 1) (symStep s) with
    | false => exact ⟨none, rfl, .inr ⟨rfl, rfl⟩⟩
    | true => exact ⟨_, rfl, .inl ⟨rfl, rfl⟩⟩

/-- Everything a legal TRAIN can do: it fails at one of its three pulls, or all three are made and the gate decides
(41_equalizer_trainer R140, R148 to R150). -/
theorem trainSession_cases (s : State) :
    ∃ (k : Nat) (ex : Bool) (as : List PullAnswer) (g : Nat),
      (trainSession s = raiseFault .underrun (pullEffect k ex as g s) ∧ ex = true) ∨
      (trainSession s = raiseFault .unexpected (pullEffect k ex as g s) ∧ ex = s.exhausted) ∨
      (∃ cap : List Real64, cap.length = s.cfg.eqlen * s.cfg.nsym + s.cfg.lookahead ∧ ex = s.exhausted ∧
        k = s.cfg.silenceLen + (s.cfg.eqlen * s.cfg.nsym + s.cfg.lookahead) + s.cfg.silencePost ∧
        trainSession s = trainGate (equalizeSignal s.cfg cap)
          (trainErrors s.cfg (firApply s.cfg (equalizeSignal s.cfg cap) cap)) (pullEffect k ex as g s)) := by
  have join : ∀ (k k' : Nat) (ex ex' : Bool) (as as' : List PullAnswer) (g g' : Nat),
      pullEffect k' ex' as' g' (pullEffect k ex as g s) = pullEffect (k + k') ex' as' g' s := by
    intros; simp [pullEffect, Nat.add_assoc]
  obtain ⟨k1, ex1, as1, g1, -, ⟨gap, h1, -, rfl, rfl⟩ | ⟨h1, h1e⟩ | ⟨h1, h1e⟩⟩ := trainPull_cases s.cfg.silenceLen
    (fun _ s1 => trainPull (s1.cfg.eqlen * s1.cfg.nsym + s1.cfg.lookahead) (fun cap s2 =>
      trainPull s2.cfg.silencePost (fun _ s3 => trainCapture cap s3) s2) s1) s
  · simp only [trainSession, h1, pullEffect_cfg]
    obtain ⟨k2, ex2, as2, g2, -, ⟨cap, h2, hc, rfl, rfl⟩ | ⟨h2, h2e⟩ | ⟨h2, h2e⟩⟩ :=
      trainPull_cases (s.cfg.eqlen * s.cfg.nsym + s.cfg.lookahead)
        (fun cap s2 => trainPull s2.cfg.silencePost (fun _ s3 => trainCapture cap s3) s2)
        (pullEffect s.cfg.silenceLen s.exhausted as1 g1 s)
    · simp only [h2, join, pullEffect_cfg]
      obtain ⟨k3, ex3, as3, g3, -, ⟨_, h3, -, rfl, rfl⟩ | ⟨h3, h3e⟩ | ⟨h3, h3e⟩⟩ :=
        trainPull_cases s.cfg.silencePost (fun _ s3 => trainCapture cap s3)
          (pullEffect (s.cfg.silenceLen + (s.cfg.eqlen * s.cfg.nsym + s.cfg.lookahead)) s.exhausted as2 g2 s)
      · exact ⟨_, _, as3, g3, .inr (.inr ⟨cap, hc, rfl, rfl, by
          rw [show (pullEffect s.cfg.silenceLen s.exhausted as1 g1 s).exhausted = s.exhausted from rfl, h3, join]
          rfl⟩)⟩
      · exact ⟨_, _, as3, g3, .inl ⟨by
          rw [show (pullEffect s.cfg.silenceLen s.exhausted as1 g1 s).exhausted = s.exhausted from rfl, h3, join],
          h3e⟩⟩
      · exact ⟨_, _, as3, g3, .inr (.inl ⟨by
          rw [show (pullEffect s.cfg.silenceLen s.exhausted as1 g1 s).exhausted = s.exhausted from rfl, h3, join],
          h3e⟩)⟩
    · exact ⟨_, _, as2, g2, .inl ⟨by rw [h2, join], h2e⟩⟩
    · exact ⟨_, _, as2, g2, .inr (.inl ⟨by rw [h2, join], h2e⟩)⟩
  · exact ⟨k1, ex1, as1, g1, .inl ⟨h1, h1e⟩⟩
  · exact ⟨k1, ex1, as1, g1, .inr (.inl ⟨h1, h1e⟩)⟩

/-- A command whose mode table row has `ok` in one mode only: its effect in that mode, else a fault or nothing. -/
theorem inMode_one {i : Instr} {m : Mode} (f : State → State) (s : State)
    (h : ∀ m', legality i m' = .ok → m' = m) :
    (s.mode = m ∧ inMode i f s = f s) ∨ inMode i f s = illegalCommand s := by
  rcases inMode_cases i f s with ⟨hl, he⟩ | ⟨hl, he⟩ | ⟨hl, he⟩
  · exact .inl ⟨h _ hl, he⟩
  · exact .inr (by rw [he, illegalCommand, (legality_terminal i s.mode).2 hl]; rfl)
  · exact .inr (by rw [he, illegalCommand, (legality_terminal i s.mode).1 hl]; rfl)

/-- Everything a command can do: its own effect in a mode that has one, or what an illegal command does (which in a
terminal mode is nothing, so that an ignored command is among these). -/
theorem exec_cases {i : Instr} {s t : State} (h : exec i s = .next t) :
    (i = .nop ∧ t = s) ∨
    (∃ r, i = .rdreg r ∧ ((∃ v, readReg r s = some v ∧ t = respond v s) ∨
      (readReg r s = none ∧ t = illegalCommand (respond 0 s)))) ∨
    (∃ d, i = .fadj d ∧ s.mode = .pre ∧ t = adjustFreq d s) ∨
    (i = .train ∧ s.mode = .training ∧ t = trainSession s) ∨
    (i = .sym ∧ s.mode = .demodulating ∧ t = symStep s) ∨
    (∃ n, i = .run n ∧ s.mode = .demodulating ∧ t = runTurn n 0 s) ∨
    (∃ c cause, i = .abort c ∧ hostCause c = some cause ∧ s.mode.terminal = false ∧ t = raiseFault cause s) ∨
    (i = .reset ∧ t = sessionReset s) ∨
    (i ≠ .reset ∧ (∀ r, i ≠ .rdreg r) ∧ t = illegalCommand s) := by
  cases i with
  | nop => exact .inl ⟨rfl, by simpa [exec, execNop] using h.symm⟩
  | rdreg r =>
    simp only [exec, execRdreg] at h
    cases hr : readReg r s with
    | some v => exact .inr (.inl ⟨r, rfl, .inl ⟨v, hr, by simpa [hr] using h.symm⟩⟩)
    | none => exact .inr (.inl ⟨r, rfl, .inr ⟨hr, by simpa [hr] using h.symm⟩⟩)
  | fadj d =>
    simp only [exec, execFadj] at h
    split at h
    · obtain rfl : inMode (.fadj d) (adjustFreq d) s = t := by simpa using h
      rcases inMode_one (i := .fadj d) (m := .pre) (adjustFreq d) s (by intro m'; cases m' <;> simp [legality]) with
        ⟨hm, he⟩ | he
      · exact .inr (.inr (.inl ⟨d, rfl, hm, he⟩))
      · exact .inr (.inr (.inr (.inr (.inr (.inr (.inr (.inr ⟨nofun, nofun, he⟩)))))))
    · exact .inr (.inr (.inr (.inr (.inr (.inr (.inr (.inr ⟨nofun, nofun, by simpa using h.symm⟩)))))))
  | train =>
    obtain rfl : inMode .train trainSession s = t := by simpa [exec, execTrain] using h
    rcases inMode_one (i := .train) (m := .training) trainSession s
      (by intro m'; cases m' <;> simp [legality]) with ⟨hm, he⟩ | he
    · exact .inr (.inr (.inr (.inl ⟨rfl, hm, he⟩)))
    · exact .inr (.inr (.inr (.inr (.inr (.inr (.inr (.inr ⟨nofun, nofun, he⟩)))))))
  | sym =>
    obtain rfl : inMode .sym symStep s = t := by simpa [exec, execSym] using h
    rcases inMode_one (i := .sym) (m := .demodulating) symStep s
      (by intro m'; cases m' <;> simp [legality]) with ⟨hm, he⟩ | he
    · exact .inr (.inr (.inr (.inr (.inl ⟨rfl, hm, he⟩))))
    · exact .inr (.inr (.inr (.inr (.inr (.inr (.inr (.inr ⟨nofun, nofun, he⟩)))))))
  | run n =>
    obtain rfl : inMode (.run n) (runTurn n 0) s = t := by simpa [exec, execRun] using h
    rcases inMode_one (i := .run n) (m := .demodulating) (runTurn n 0) s
      (by intro m'; cases m' <;> simp [legality]) with ⟨hm, he⟩ | he
    · exact .inr (.inr (.inr (.inr (.inr (.inl ⟨n, rfl, hm, he⟩)))))
    · exact .inr (.inr (.inr (.inr (.inr (.inr (.inr (.inr ⟨nofun, nofun, he⟩)))))))
  | abort c =>
    simp only [exec, execAbort] at h
    cases hc : hostCause c with
    | none =>
      exact .inr (.inr (.inr (.inr (.inr (.inr (.inr (.inr ⟨nofun, nofun, by simpa [hc] using h.symm⟩)))))))
    | some cause =>
      obtain rfl : inMode (.abort c) (raiseFault cause) s = t := by simpa [hc] using h
      rcases inMode_cases (.abort c) (raiseFault cause) s with ⟨hl, he⟩ | ⟨hl, he⟩ | ⟨hl, he⟩
      · refine .inr (.inr (.inr (.inr (.inr (.inr (.inl ⟨c, cause, rfl, hc, ?_, he⟩))))))
        cases hm : s.mode <;> simp_all [legality, Mode.terminal]
      · cases hm : s.mode <;> simp_all [legality]
      · exact .inr (.inr (.inr (.inr (.inr (.inr (.inr (.inr ⟨nofun, nofun, by
          rw [he, illegalCommand, (legality_terminal _ s.mode).1 hl]; rfl⟩)))))))
  | reset => exact .inr (.inr (.inr (.inr (.inr (.inr (.inr (.inl ⟨rfl, by
      simpa [exec, execReset] using h.symm⟩)))))))

/-- A SYM step leaves the pending words, the responses, the reset input and the configuration alone. -/
theorem symStep_cmds_resp (s : State) : (symStep s).cmds = s.cmds ∧ (symStep s).resp = s.resp ∧
    (symStep s).resetIn = s.resetIn ∧ (symStep s).cfg = s.cfg := by
  obtain ⟨k, ex, as, g, -, ⟨w, ps, gs, -, -, -, h⟩ | ⟨-, -, h⟩ | ⟨-, h⟩ | ⟨w, j, ps, gs, -, -, -, -, h⟩⟩ :=
    symStep_cases s
  · rw [h]; rcases driftTrigger_cases (countBlock (pushEffect ((blockSymbols s.cfg w).map (symbolTuple s.cfg)) ps gs
      (accumulate (blockSymbols s.cfg w) (pullEffect k ex as g s)))) with ⟨-, h⟩ | ⟨-, h⟩ <;> rw [h] <;> simp
  all_goals rw [h]; simp

/-- Everything a step can do when it answers a next state. -/
theorem step_cases {s t : State} (h : step s = .next t) :
    configOk s.cfg = true ∧
    ((s.resetIn = true ∧ t = resetInput s) ∨
     (s.resetIn = false ∧ ∃ r, s.run = some r ∧ t = runTurn r.n r.i s) ∨
     (s.resetIn = false ∧ s.run = none ∧ ∃ i rest, decode s.cmds = .instr i rest ∧
        exec i { s with cmds := rest } = .next t) ∨
     (s.resetIn = false ∧ s.run = none ∧ ∃ why rest, decode s.cmds = .illegal why rest ∧
        t = executeIllegal why { s with cmds := rest }) ∨
     (s.resetIn = false ∧ s.run = none ∧ decode s.cmds = .needMore ∧ t = s)) := by
  unfold step at h
  split at h
  · simp at h
  · rename_i hc
    refine ⟨by simpa using hc, ?_⟩
    split at h
    · rename_i hr
      exact .inl ⟨hr, by simpa using h.symm⟩
    · rename_i hr
      have hr : s.resetIn = false := by simpa using hr
      split at h
      · rename_i r hrun
        exact .inr (.inl ⟨hr, r, hrun, by simpa using h.symm⟩)
      · rename_i hrun
        unfold fetch at h
        cases hd : decode s.cmds with
        | instr i rest => exact .inr (.inr (.inl ⟨hr, hrun, i, rest, rfl, by simpa [hd] using h⟩))
        | illegal why rest =>
          exact .inr (.inr (.inr (.inl ⟨hr, hrun, why, rest, rfl, by simpa [hd] using h.symm⟩)))
        | needMore => exact .inr (.inr (.inr (.inr ⟨hr, hrun, rfl, by simpa [hd] using h.symm⟩)))

/-- Every command answers a next state (30_encoding R98, R99: no command stops the machine). -/
theorem exec_next (i : Instr) (s : State) : ∃ t, exec i s = .next t := by
  cases i with
  | rdreg r => simp only [exec, execRdreg]; split <;> exact ⟨_, rfl⟩
  | fadj d => simp only [exec, execFadj]; split <;> exact ⟨_, rfl⟩
  | abort c => simp only [exec, execAbort]; split <;> exact ⟨_, rfl⟩
  | nop => exact ⟨_, rfl⟩
  | train => exact ⟨_, rfl⟩
  | sym => exact ⟨_, rfl⟩
  | run n => exact ⟨_, rfl⟩
  | reset => exact ⟨_, rfl⟩

end Sys2Proof.Machine
end

