-- ==== Sys2Proof/Laws/PerInstr.lean ====
section
/-! SUPPORT. Statements about every command as syntax, one lemma per constructor of `Instr`. -/

namespace Sys2Proof.Laws.EncodingLength

/-- 30_encoding R90: a command is its first word and as many extension words as that word's opcode asks for. -/
def Statement (i : Instr) : Prop :=
  ∃ w rest, encode i = w :: rest ∧ rest.length = extensionWords (opField w)

theorem nop : Statement .nop := ⟨_, _, rfl, rfl⟩

theorem rdreg (r : BitVec 16) : Statement (.rdreg r) := by
  have h : opField ((0x0100 : BitVec 16) ++ r) = 0x01 := by
    rw [opField, BitVec.extractLsb'_append_eq_of_le (by omega)]; rfl
  exact ⟨_, _, rfl, by rw [h]; rfl⟩

theorem fadj (delta : Real64) : Statement (.fadj delta) := ⟨_, _, rfl, rfl⟩

theorem train : Statement .train := ⟨_, _, rfl, rfl⟩

theorem sym : Statement .sym := ⟨_, _, rfl, rfl⟩

theorem run (n : BitVec 24) : Statement (.run n) := by
  have h : opField ((0x06 : BitVec 8) ++ n) = 0x06 := by
    rw [opField, BitVec.extractLsb'_append_eq_of_le (by omega)]; rfl
  exact ⟨_, _, rfl, by rw [h]; rfl⟩

theorem abort (c : BitVec 8) : Statement (.abort c) := by
  have h : opField ((0x070000 : BitVec 24) ++ c) = 0x07 := by
    rw [opField, BitVec.extractLsb'_append_eq_of_le (by omega)]; rfl
  exact ⟨_, _, rfl, by rw [h]; rfl⟩

theorem reset : Statement .reset := ⟨_, _, rfl, rfl⟩

end Sys2Proof.Laws.EncodingLength
end

