-- ==== Sys2Proof/Tests/Slice0.lean ====
section
/-! SUPPORT. Tests. Every expected value is written out from spec/: a vector `V<n>` of 95_test_vectors, the worked
encodings of 30_encoding R104, or a hand calculation from the rule named. The theorems `test_witness_<Name>` show, for
the obligation `<Name>`, a concrete input that meets its hypotheses. -/

namespace Sys2Proof.Tests

open Sys2Proof Sys2Proof.Machine

/-! ## The test bench -/

abbrev zero : Real64 := 0
abbrev half : Real64 := 0x3FE0000000000000
abbrev one : Real64 := 0x3FF0000000000000
abbrev two : Real64 := 0x4000000000000000
abbrev minusOne : Real64 := 0xBFF0000000000000
abbrev minusTwo : Real64 := 0xC000000000000000
abbrev threeHalves : Real64 := 0x3FF8000000000000
abbrev infinity : Real64 := 0x7FF0000000000000
abbrev aNaN : Real64 := 0x7FF8000000000001

/-- T1 of 95_test_vectors, with `h` as what equalize_signal returns (44_kernels R201). -/
def t1 (h : List Real64) : Config := { Config.t1 with equalizer := .constant h }

/-- T2 of 95_test_vectors, with `h` as what equalize_signal returns. -/
def t2 (h : List Real64) : Config :=
  { t1 h with
    nfreq := 2, frequencies := [two, 0x4010000000000000], ntone := 2, dfreq := [two, 0x4010000000000000],
    ref := Config.t1.ref ++ [[⟨one, 0⟩, ⟨minusOne, 0⟩, ⟨one, 0⟩, ⟨minusOne, 0⟩]],
    trainsym := [[⟨one, 0⟩, ⟨one, 0⟩], [⟨minusOne, 0⟩, ⟨minusOne, 0⟩]],
    trainwave := [two, minusOne, 0, minusOne, minusTwo, one, 0, one] }

/-- A block in TRAINING with reset values elsewhere. -/
def training (c : Config) : State := { State.fresh c with mode := .training }

/-- A block in DEMODULATING with the filter `[0.5]`. -/
def demodulating (c : Config) : State := { State.fresh c with mode := .demodulating, eqValid := true, h := [half] }

/-- A block in FAILED with cause 2. -/
def failed : State := { State.fresh Config.t1 with mode := .failed, cause := .badPrefix }

/-- A block in DONE. -/
def done : State := { demodulating (t1 [half]) with mode := .done, exhausted := true }

/-- `s` with these words issued. -/
def issue (s : State) (ws : List Word) : State := { s with cmds := ws }

/-- `s` with these samples as the Sampler's answers, none of them a failure. -/
def feed (s : State) (answers : List (List Real64)) : State := { s with samplerIn := answers.map (⟨·, false⟩) }

/-- `s` with these answers of the bit sink. -/
def sink (s : State) (answers : List PushAnswer) : State := { s with sinkIn := answers }

/-- The state after one step. -/
def after (s : State) : Option State :=
  match step s with
  | .next t => some t
  | .fault _ => none
  | .refused _ => none

theorem step_of_after {s t : State} (h : after s = some t) : step s = .next t := by
  unfold after at h
  split at h <;> simp_all

/-- Whether the decoder sees RESET first. -/
def seesReset : Decoded → Bool
  | .instr .reset _ => true
  | _ => false

theorem not_resetsNext {s : State} (h1 : s.resetIn = false) (h2 : seesReset (decode s.cmds) = false) :
    ¬ ResetsNext s := by
  rintro (h | ⟨-, rest, h⟩)
  · simp [h1] at h
  · simp [h, seesReset] at h2

/-- The window `[1, −1, −1, 1]` of V21. -/
def window1 : List Real64 := [one, minusOne, minusOne, one]

/-- The window `[1.5, −1.5, −0.5, 0.5]` of V22. -/
def window2 : List Real64 := [threeHalves, 0xBFF8000000000000, 0xBFE0000000000000, half]

/-- The capture of V15: `TRAINWAVE` through a channel of gain 2. -/
def capture : List Real64 := [two, 0, minusTwo, 0, minusTwo, 0, two, 0]

/-- The capture of V18, orthogonal to `TRAINWAVE`. -/
def orthogonal : List Real64 := [0, one, 0, minusOne, 0, minusOne, 0, one]

/-! ## Well-formedness (30_encoding R93, R95): each check refuses an ill-formed term -/

theorem test_wellFormed_refuses_register :
    (Instr.rdreg 0x0020).wellFormed = false ∧ (Instr.rdreg 0x000E).wellFormed = false ∧
    (Instr.rdreg 0x0FFF).wellFormed = false := by decide

theorem test_wellFormed_refuses_infinite_delta : (Instr.fadj infinity).wellFormed = false := by decide

theorem test_wellFormed_refuses_nan_delta : (Instr.fadj 0x7FF8000000000001).wellFormed = false := by decide

theorem test_wellFormed_refuses_cause :
    (Instr.abort 0).wellFormed = false ∧ (Instr.abort 3).wellFormed = false ∧
    (Instr.abort 8).wellFormed = false := by decide

theorem test_wellFormed_accepts :
    (Instr.rdreg 0x000D).wellFormed = true ∧ (Instr.rdreg 0x1000).wellFormed = true ∧
    (Instr.fadj 0x3EFA36E2EB1C432D).wellFormed = true ∧ (Instr.abort 7).wellFormed = true ∧
    (Instr.run 0).wellFormed = true := by decide

/-! ## Well-formed configurations (00_scope R10): T1 and T2 are, and each check refuses one that is not -/

theorem test_configOk_accepts : configOk (t1 [half]) = true ∧ configOk (t2 [one]) = true := by decide +kernel

theorem test_configOk_refuses_rate : configOk { Config.t1 with baud := 3 } = false := by decide +kernel

theorem test_configOk_refuses_zero_pilot : configOk { Config.t1 with fc := 0x8000000000000000 } = false := by
  decide +kernel

theorem test_configOk_refuses_equal_points :
    configOk { Config.t1 with const := [⟨one, 0⟩, ⟨one, 0x8000000000000000⟩] } = false := by decide +kernel

theorem test_configOk_refuses_unknown_training_symbol :
    configOk { Config.t1 with trainsym := [[⟨one, 0⟩], [⟨two, 0⟩]] } = false := by decide +kernel

theorem test_configOk_refuses_short_table : configOk { Config.t1 with trainwave := [one] } = false := by
  decide +kernel

/-! ## Decoding: words written out from 30_encoding R91, R94 and R104 (`op` in bits 31 to 24) -/

theorem test_decode_nop : decode [0x00000000] = .instr .nop [] := by decide  -- V1

theorem test_decode_rdreg : decode [0x01001002] = .instr (.rdreg 0x1002) [] := by decide  -- R104

theorem test_decode_fadj :  -- V3
    decode [0x02000000, 0xEB1C432D, 0x3EFA36E2] = .instr (.fadj 0x3EFA36E2EB1C432D) [] := by decide

theorem test_decode_train : decode [0x04000000] = .instr .train [] := by decide  -- R104

theorem test_decode_sym : decode [0x05000000] = .instr .sym [] := by decide  -- R104

theorem test_decode_run : decode [0x06FFFFFF] = .instr (.run 16777215) [] := by decide  -- V5

theorem test_decode_abort : decode [0x07000002] = .instr (.abort 2) [] := by decide  -- R104

theorem test_decode_reset : decode [0x08000000, 0x01000001] = .instr .reset [0x01000001] := by decide  -- V36

theorem test_decode_rejects :  -- V6, V6a, V6e, V6f, V6g
    decode [0x03000000] = .illegal (.reservedOpcode 0x03) [] ∧
    decode [0x02000001, 0, 0] = .illegal (.mustBeZero 0x02) [] ∧
    decode [0x07000107] = .illegal (.mustBeZero 0x07) [] ∧
    decode [0x01010004] = .illegal (.mustBeZero 0x01) [] ∧
    decode [0xFF000000] = .illegal (.reservedOpcode 0xFF) [] ∧
    decode [0x09000000] = .illegal (.reservedOpcode 0x09) [] := by decide

theorem test_decodeTableWord :
    decodeTableWord 32 0x02000000 = some (.fadj 0) ∧
    decodeTableWord 96 0x3EFA36E2EB1C432D02000000 = some (.fadj 0x3EFA36E2EB1C432D) ∧
    decodeTableWord 32 0x06000064 = some (.run 100) ∧ decodeTableWord 32 0x03000000 = none := by decide

theorem test_wordsOfBytes :  -- 20_memory R69: least significant byte first
    wordsOfBytes [0x04, 0x00, 0x00, 0x01, 0x64] = ([0x01000004], [0x64]) := by decide

theorem test_assemble :  -- R102
    assembleLine "RDREG H[2] ; a coefficient".toList = some (.rdreg 0x1002) ∧
    assembleLine "FADJ 2.5e-5".toList = some (.fadj 0x3EFA36E2EB1C432D) ∧
    assembleLine "ABORT HOST".toList = some (.abort 7) ∧
    assembleLine "FADJ -0x1.8p1".toList = some (.fadj 0xC008000000000000) ∧
    assembleLine "RUN 16777216".toList = none := by decide +kernel

/-! ## One step of each command -/

theorem test_nop_step : after (issue failed [0x00000000]) = some failed := by decide

theorem test_nop_nonzero_imm :  -- V13a
    (after (issue (demodulating Config.t1) [0x00000001])).map (fun t => (t.mode, t.cause)) =
      some (.failed, .illegalCommand) := by decide

theorem test_rdreg_freq :  -- V7
    after (issue State.reset [0x01000004]) = some { State.reset with resp := [0x3FF0000000000000] } := by decide

theorem test_rdreg_unimplemented :  -- V11
    (after (issue State.reset [0x01001000])).map (fun t => (t.resp, t.mode, t.cause)) =
      some ([0], .failed, .illegalCommand) := by decide

theorem test_fadj_step :  -- V9
    (after (issue State.reset [0x02000000, 0xEB1C432D, 0x3EFA36E2])).map (fun t => (t.freq, t.mode, t.offset)) =
      some (0x3FEFFFCB923A29C7, .training, 0) := by decide +kernel

theorem test_fadj_in_training :  -- V9b
    (after (issue (training Config.t1) [0x02000000, 0, 0])).map (fun t => (t.freq, t.mode, t.cause)) =
      some (one, .failed, .illegalCommand) := by decide

theorem test_train_installs :  -- V15
    (after (issue (feed (training (t1 [half])) [[0, 0], capture]) [0x04000000])).map
        (fun t => (t.mode, t.h, t.eqValid, t.trainerr, t.pulled)) =
      some (.demodulating, [half], true, 0, 10) := by decide +kernel

theorem test_train_gate :  -- V18
    (after (issue (feed (training (t1 [zero])) [[0, 0], orthogonal]) [0x04000000])).map
        (fun t => ((t.mode, t.cause, t.h), (t.eqValid, t.trainerr, t.pulled))) =
      some ((.failed, .eqValidation, []), (false, 1, 10)) := by decide +kernel

theorem test_sym_correction :  -- V22a
    (after (issue (sink (feed { demodulating (t2 [half]) with
          symcnt := 1, blktot := 1, bitcnt := 2, out := [[false], [false]], err := [⟨one, one⟩, ⟨one, 0⟩] }
        [[0xBFF8000000000000, threeHalves, half, 0xBFE0000000000000]]) [.ok, .ok]) [0x05000000])).map
        (fun t => ((t.freq, t.offset, t.lasterr), ((t.err, t.symcnt), (t.ncorr, t.out)))) =
      some ((0x3FEFFD70A3D70A3D, 0xBFB0000000000000, 0x3FB0000000000000),
        (([], 0), (1, [[false], [false], [true], [true]]))) := by decide +kernel

theorem test_sym_sink_error :  -- V23
    (after (issue (sink (feed (demodulating (t2 [half])) [window2]) [.ok, .error]) [0x05000000])).map
        (fun t => ((t.mode, t.cause, t.out), (t.bitcnt, t.err, t.blktot))) =
      some ((.failed, .unexpected, [[false]]), (1, [⟨one, one⟩, ⟨one, 0⟩], 0)) := by decide +kernel

theorem test_run_one :  -- V23f
    (after (issue (sink (feed (demodulating (t1 [half])) [window1]) [.ok]) [0x06000001])).map
        (fun t => ((t.run, t.err, t.out), (t.symcnt, t.blktot, t.bitcnt))) =
      some ((none, [⟨one, one⟩], [[false]]), (1, 1, 1)) := by decide +kernel

theorem test_run_reset :  -- V35: the reset input inside RUN 0
    after { issue { demodulating (t1 [half]) with run := some ⟨0, 0⟩ } [0x05000000] with resetIn := true } =
      some (State.fresh (t1 [half])) := by decide

theorem test_abort_step :  -- V10b
    (after (issue { demodulating (t1 [half]) with out := [[false]] } [0x07000007])).map
        (fun t => (t.mode, t.cause, t.out)) = some (.failed, .host, [[false]]) := by decide

theorem test_abort_ignored : after (issue failed [0x07000001]) = some failed := by decide  -- V10a

theorem test_reset_step :  -- V12a; the words after it are kept, V36
    after (issue { demodulating (t1 [half]) with
        freq := 0x3FEFFAE147AE147B, offset := 0xBFC0000000000000, blktot := 2 } [0x08000000, 0x01000001]) =
      some (issue (State.fresh (t1 [half])) [0x01000001]) := by decide

/-! ## Kernels -/

theorem test_ratio :  -- V29a, V29b
    ratio Config.t1 ⟨minusOne, minusOne⟩ ⟨minusOne, 0⟩ = ⟨one, one⟩ ∧
    ratio Config.t1 ⟨0, two⟩ ⟨0, one⟩ = ⟨two, 0⟩ := by
  decide +kernel

theorem test_nearest :  -- V30, V30a, V21a
    nearest Config.t1 [⟨one, 0⟩, ⟨minusOne, 0⟩] ⟨0x3FD0000000000000, 0x4014000000000000⟩ = 0 ∧
    nearest Config.t1 [⟨one, 0⟩, ⟨minusOne, 0⟩] ⟨0, 0⟩ = 0 ∧
    nearest Config.t1 [⟨one, 0⟩, ⟨minusOne, 0⟩] ⟨minusOne, minusOne⟩ = 1 := by decide +kernel

theorem test_fir :  -- V31, V31a
    firApply Config.t1 [0, one] [one, two, 0x4008000000000000] = [0, one, two] ∧
    firApply Config.t1 [half] [two, 0, minusTwo] = [one, 0, minusOne] := by decide +kernel

theorem test_train_lookahead :  -- V16: T3, the window starts LOOKAHEAD samples into the filtered capture
    trainErrors { t1 [0, one] with lookahead := 1, ncoef := 2 }
      (firApply Config.t1 [0, one] [one, 0, minusOne, 0, minusOne, 0, one, 0, 0]) = 0 := by decide +kernel

theorem test_phase :  -- V32
    [(⟨one, 0⟩ : Cplx), ⟨0, one⟩, ⟨minusOne, 0⟩, ⟨0, minusOne⟩, ⟨one, one⟩, ⟨one, minusOne⟩, ⟨0, 0⟩,
      ⟨minusOne, 0x8000000000000000⟩].map (phaseOf Config.t1) =
    [0, 0x3FD0000000000000, half, 0xBFD0000000000000, 0x3FC0000000000000, 0xBFC0000000000000, 0, half] := by
  decide +kernel

theorem test_meanPhase :  -- V27
    meanPhase Config.t1 [⟨one, one⟩, ⟨one, 0⟩, ⟨one, minusOne⟩, ⟨one, one⟩] = 0x3FA0000000000000 := by
  decide +kernel

theorem test_drift :  -- V26
    (fun t => (t.freq, t.offset)) (driftCorrection { State.fresh Config.t1 with
        err := [⟨one, minusOne⟩, ⟨one, 0⟩], freq := 0x3FEFFAE147AE147B, offset := 0xBFC0000000000000 }) =
      (0x3FEFFD70A3D70A3E, 0xBFB0000000000000) := by decide +kernel

/-! ## Witnesses: for each obligation with hypotheses, an input that meets all of them together -/

theorem test_witness_EncodeOfDecode : decode [0x0600000A, 0x01000001] = .instr (.run 10) [0x01000001] := by decide

theorem test_witness_LengthIsDecidedByOpcode :
    opField 0x02000000 = 0x02 ∧ immField 0x02000000 = 0 ∧ opField 0x02FFFFFF = 0x02 ∧ immField 0x02FFFFFF ≠ 0 ∧
    opField 0x01000004 ≠ 0x02 ∧ opField 0x03000000 ≠ 0x02 := by decide

theorem test_witness_DecoderRejectsExactly :
    opField 0x03000000 ≠ 0x02 ∧ opField 0x09000000 ≠ 0x02 ∧ opField 0x01010000 ≠ 0x02 ∧
    opField 0x0100FFFF ≠ 0x02 ∧ opField 0x07000100 ≠ 0x02 ∧ opField 0x070000FF ≠ 0x02 ∧
    opField 0x00000001 ≠ 0x02 ∧ opField 0x01010000 = 0x01 ∧ (immField 0x01010000).toNat / 2 ^ 16 ≠ 0 ∧
    opField 0x01FF0004 = 0x01 ∧ (immField 0x01FF0004).toNat / 2 ^ 16 ≠ 0 ∧
    decode [0x02000001, 0, 0] = .illegal (.mustBeZero 0x02) [] := by decide

theorem test_witness_ByteTransportKeepsWords : ([0x01, 0x02, 0x03] : List Byte).length < 4 := by decide

theorem test_witness_StepRunsDecodedCommand :
    let s := issue (training Config.t1) [0x04000000, 0x05000000]
    configOk s.cfg = true ∧ s.resetIn = false ∧ s.run = none ∧ decode s.cmds = .instr .train [0x05000000] := by
  decide

theorem test_witness_FetchWordRunsNext :
    configOk (demodulating (t1 [half])).cfg = true ∧ decodeTableWord 32 0x05000000 = some .sym := by decide

theorem test_witness_IllegalWordFaultsOrIsIgnored :
    let s := issue (training Config.t1) [0x01010004]
    let s' := issue done [0x03000000]
    (configOk s.cfg = true ∧ s.resetIn = false ∧ s.run = none ∧
      decode s.cmds = .illegal (.mustBeZero 0x01) [] ∧ s.mode.terminal = false) ∧
    (configOk s'.cfg = true ∧ s'.resetIn = false ∧ s'.run = none ∧
      decode s'.cmds = .illegal (.reservedOpcode 0x03) [] ∧ s'.mode.terminal = true) := by decide

theorem test_witness_WaitingChangesNothing :
    let s := issue State.reset [0x02000000, 0xEB1C432D]
    configOk s.cfg = true ∧ s.resetIn = false ∧ s.run = none ∧ decode s.cmds = .needMore := by decide

theorem test_witness_ResetInputStartsSession :
    let s := { demodulating Config.t1 with run := some ⟨0, 0⟩, resetIn := true }
    configOk s.cfg = true ∧ s.resetIn = true := by decide

theorem test_witness_IllFormedConfigurationIsRefused :
    configOk (State.fresh { Config.t1 with const := [⟨one, 0⟩, ⟨0, 0⟩] }).cfg = false := by decide

theorem test_witness_RegisterSpace :
    let s := demodulating Config.t1
    s.err.length < 2 ^ 32 ∧ s.h.length < 2 ^ 32 ∧
    (0x000D < (0x000E : BitVec 16).toNat ∧ (0x000E : BitVec 16).toNat < 0x1000) ∧
    (0x000D < (0x0FFF : BitVec 16).toNat ∧ (0x0FFF : BitVec 16).toNat < 0x1000) ∧
    (0x1000 : BitVec 16).toNat = 0x1000 + 0 ∧ (0xFFFF : BitVec 16).toNat = 0x1000 + 0xEFFF := by decide

theorem test_witness_RdregResponds :
    readReg 0x1000 (demodulating Config.t1) = some half ∧
    (readReg 0x0020 failed = none ∧ failed.mode.terminal = true) ∧
    (readReg 0x1000 State.reset = none ∧ State.reset.mode.terminal = false) := by decide

theorem test_witness_FadjCorrectsFreq :
    State.reset.mode = .pre ∧ isFinite 0x3EFA36E2EB1C432D = true := by decide

theorem test_witness_FadjOfNonFiniteIsIllegal :
    isFinite infinity = false ∧ isFinite aNaN = false ∧ State.reset.mode.terminal = false ∧
    done.mode.terminal = true := by decide

theorem test_witness_AbortEntersFailed :
    State.reset.mode.terminal = false ∧ (training Config.t1).mode.terminal = false ∧
    (demodulating Config.t1).mode.terminal = false := by decide

theorem test_witness_AbortOfOtherCodeIsIllegal :
    (3 : BitVec 8) ≠ 1 ∧ (3 : BitVec 8) ≠ 2 ∧ (3 : BitVec 8) ≠ 7 ∧ State.reset.mode.terminal = false := by decide

theorem test_witness_TerminalModesIgnore :
    (done.mode.terminal = true ∧ Instr.sym ≠ .nop ∧ (∀ r, Instr.sym ≠ .rdreg r) ∧ Instr.sym ≠ .reset) ∧
    ((issue failed [0x03000000]).mode.terminal = true ∧ configOk failed.cfg = true ∧ failed.resetIn = false ∧
      failed.run = none ∧ decode [0x03000000] = .illegal (.reservedOpcode 0x03) [] ∧
      Reject.reservedOpcode 0x03 ≠ .mustBeZero 0x01) :=
  ⟨⟨rfl, nofun, nofun, nofun⟩, by decide⟩

theorem test_witness_OutOfOrderCommandFaults :
    ((demodulating Config.t1).mode.terminal = false ∧ (demodulating Config.t1).mode ≠ .pre ∧
      (demodulating Config.t1).mode ≠ .training) ∧
    ((training Config.t1).mode.terminal = false ∧ (training Config.t1).mode ≠ .demodulating) := by decide

theorem test_witness_PullStatusAndCount :
    0 < 2 ∧ State.reset.exhausted = false ∧
    ((⟨[one, aNaN], false⟩ : PullAnswer).samples.take 2).any (fun x => !isFinite x) = true ∧
    (((⟨[one], false⟩ : PullAnswer).samples.take 2).length < 2 ∧ isFinite one = true) ∧
    ((⟨[one, two, half], false⟩ : PullAnswer).samples.take 2).length = 2 ∧
    ((⟨[one, two, half], false⟩ : PullAnswer).samples.take 2).all isFinite = true := by decide

theorem test_witness_ExhaustionIsSticky : done.exhausted = true ∧ 0 < 1 := by decide

theorem test_witness_ExhaustedStaysUntilReset :
    ∃ s t, step s = .next t ∧ ¬ ResetsNext s ∧ s.exhausted = true :=
  ⟨issue done [0x05000000], done, step_of_after (by decide), not_resetsNext (by decide) (by decide), by decide⟩

theorem test_witness_PushesStopAtFirstError :
    (0 < [[true], [false]].length ∧
      (sink State.reset [.error]).sinkIn = List.replicate 0 .ok ++ .error :: []) ∧
    (1 < [[true], [false]].length ∧
      (sink State.reset [.ok, .error, .ok]).sinkIn = List.replicate 1 .ok ++ .error :: [.ok]) ∧
    (sink State.reset [.ok, .ok]).sinkIn = List.replicate [[true], [false]].length .ok ++ [] := by decide

/-- TRAIN of V15: three pulls answered `ok`, no mismatch. -/
theorem test_witness_TrainInstallsFilter :
    ∃ s s1 s2 s3 gap cap post, s.mode = .training ∧
      samplerTake s.cfg.silenceLen s = (gap, .ok, s1) ∧
      samplerTake (s.cfg.eqlen * s.cfg.nsym + s.cfg.lookahead) s1 = (cap, .ok, s2) ∧
      samplerTake s.cfg.silencePost s2 = (post, .ok, s3) ∧
      trainErrors s.cfg (firApply s.cfg (equalizeSignal s.cfg cap) cap) = 0 :=
  ⟨feed (training (t1 [half])) [[0, 0], capture], _, _, _, [0, 0], capture, [], rfl, rfl, rfl, rfl,
    by decide +kernel⟩

/-- TRAIN of V18: three pulls answered `ok`, one mismatch. -/
theorem test_witness_TrainGateFails :
    ∃ s s1 s2 s3 gap cap post, s.mode = .training ∧
      samplerTake s.cfg.silenceLen s = (gap, .ok, s1) ∧
      samplerTake (s.cfg.eqlen * s.cfg.nsym + s.cfg.lookahead) s1 = (cap, .ok, s2) ∧
      samplerTake s.cfg.silencePost s2 = (post, .ok, s3) ∧
      trainErrors s.cfg (firApply s.cfg (equalizeSignal s.cfg cap) cap) ≠ 0 :=
  ⟨feed (training (t1 [zero])) [[0, 0], orthogonal], _, _, _, [0, 0], orthogonal, [], rfl, rfl, rfl, rfl,
    by decide +kernel⟩

/-- A block in TRAINING whose configuration discards one sample after the capture. -/
def trainingPost (answers : List (List Real64)) : State :=
  feed (training { t1 [half] with silencePost := 1 }) answers

theorem test_witness_TrainPullFails_gap :
    (∃ s1, (trainingPost [[0]]).mode = .training ∧
      samplerTake 2 (trainingPost [[0]]) = ([0], .short, s1)) ∧
    (∃ s1, samplerTake 2 (trainingPost [[0, aNaN]]) = ([0, aNaN], .error, s1)) :=
  ⟨⟨_, rfl, rfl⟩, ⟨_, rfl⟩⟩

theorem test_witness_TrainPullFails_capture :
    (∃ s1 s2, samplerTake 2 (trainingPost [[0, 0], [two]]) = ([0, 0], .ok, s1) ∧
      samplerTake 8 s1 = ([two], .short, s2)) ∧
    (∃ s1 s2, samplerTake 2 (trainingPost [[0, 0], [infinity]]) = ([0, 0], .ok, s1) ∧
      samplerTake 8 s1 = ([infinity], .error, s2)) :=
  ⟨⟨_, _, rfl, rfl⟩, ⟨_, _, rfl, rfl⟩⟩

theorem test_witness_TrainPullFails_post :
    (∃ s1 s2 s3, samplerTake 2 (trainingPost [[0, 0], capture, []]) = ([0, 0], .ok, s1) ∧
      samplerTake 8 s1 = (capture, .ok, s2) ∧ samplerTake 1 s2 = ([], .short, s3)) ∧
    (∃ s1 s2 s3, samplerTake 2 (trainingPost [[0, 0], capture, [aNaN]]) = ([0, 0], .ok, s1) ∧
      samplerTake 8 s1 = (capture, .ok, s2) ∧ samplerTake 1 s2 = ([aNaN], .error, s3)) :=
  ⟨⟨_, _, _, rfl, rfl, rfl⟩, ⟨_, _, _, rfl, rfl, rfl⟩⟩

/-- A silent signal: every symbol is 0, which the tie slices to +1, and one training symbol of T1 is −1. -/
theorem test_witness_TrainErrorsCountsMismatches :
    1 < (t1 [half]).eqlen ∧ 0 < (t1 [half]).ntone ∧
    trainErrors (t1 [zero]) (List.replicate 8 zero) = 1 := by decide +kernel

/-- SYM of V21: the window is pulled, the push accepted, the interval not complete. -/
theorem test_witness_SymDemodulatesBlock :
    ∃ s s1 s2 w, s.mode = .demodulating ∧ samplerTake s.cfg.nsym s = (w, .ok, s1) ∧
      pushAll ((blockSymbols s.cfg w).map (symbolTuple s.cfg)) (accumulate (blockSymbols s.cfg w) s1) = (.ok, s2) ∧
      (s.symcnt + 1).toNat ≠ s.cfg.baud :=
  ⟨sink (feed (demodulating (t1 [half])) [window1]) [.ok], _, _, window1, rfl, rfl, rfl, by decide⟩

/-- The same SYM as the second of its interval. -/
theorem test_witness_SymMakesDriftCorrection :
    ∃ s s1 s2 w, s.mode = .demodulating ∧ samplerTake s.cfg.nsym s = (w, .ok, s1) ∧
      pushAll ((blockSymbols s.cfg w).map (symbolTuple s.cfg)) (accumulate (blockSymbols s.cfg w) s1) = (.ok, s2) ∧
      (s.symcnt + 1).toNat = s.cfg.baud :=
  ⟨sink (feed { demodulating (t1 [half]) with symcnt := 1, err := [⟨one, one⟩] } [window1]) [.ok], _, _, window1,
    rfl, rfl, rfl, by decide⟩

/-- V23a: three samples left. -/
theorem test_witness_SymAtEndOfSignal :
    ∃ s s1 w, s.mode = .demodulating ∧ samplerTake s.cfg.nsym s = (w, .short, s1) :=
  ⟨feed (demodulating (t1 [half])) [[one, one, one]], _, [one, one, one], rfl, rfl⟩

/-- V23c, and a block of two tuples, as T2 has them, whose second push is answered `error`. -/
theorem test_witness_SymPortErrorFaults :
    (∃ s s1 w, s.mode = .demodulating ∧ samplerTake s.cfg.nsym s = (w, .error, s1)) ∧
    (∃ s s1 s2 w, s.mode = .demodulating ∧ samplerTake s.cfg.nsym s = (w, .ok, s1) ∧
      pushAll ((blockSymbols s.cfg w).map (symbolTuple s.cfg)) (accumulate (blockSymbols s.cfg w) s1) =
        (.error, s2) ∧ s2.out.length = 1 ∧
      1 < s.cfg.ntone ∧ s.sinkIn = List.replicate 1 .ok ++ .error :: []) :=
  ⟨⟨{ demodulating (t1 [half]) with samplerIn := [⟨[], true⟩] }, _, [], rfl, rfl⟩,
    ⟨sink (feed (demodulating (t2 [one])) [window2]) [.ok, .error], _, _, window2, rfl, rfl, rfl, rfl, by decide,
      rfl⟩⟩

theorem test_witness_RunMakesFirstSymStep : (demodulating Config.t1).mode = .demodulating := by decide

theorem test_witness_RunIsThatManySyms :
    let s := sink (feed (demodulating (t1 [half])) [window1, window1]) [.ok, .ok]
    (2 : BitVec 24) ≠ 0 ∧ configOk s.cfg = true ∧ s.mode = .demodulating ∧ s.resetIn = false ∧ s.run = none := by
  decide

/-- The answer of a run of steps, if it is a next state. -/
def stateOf : Host.Outcome State Fault Refusal → Option State
  | .next t => some t
  | .fault _ => none
  | .refused _ => none

theorem test_witness_RunZeroHasNoLimit :
    let s := feed (demodulating (t1 [half])) [[one]]
    0 < 1 ∧ configOk s.cfg = true ∧ s.mode = .demodulating ∧ s.resetIn = false ∧ s.run = none ∧
    stateOf (core.run 1 (issue s (List.replicate 1 0x05000000)) : Host.Outcome State Fault Refusal) =
      some { done with pulled := 1 } := by decide

theorem test_witness_NearestIsLeastAndLowest :
    let points : List Cplx := [⟨one, 0⟩, ⟨minusOne, 0⟩]
    points ≠ [] ∧ Config.t1.num = .reference ∧
    (∀ j, j < points.length → isNaN (distSq Config.t1 ⟨half, one⟩ (points.getD j cplxZero)) = false) := by
  decide +kernel

/-- A symbol with a NaN part is at no comparable distance from any point. -/
theorem test_witness_NearestIsLeastAndLowest_nan :
    isNaN (distSq Config.t1 ⟨aNaN, 0⟩ ([⟨one, 0⟩].getD 0 cplxZero)) = true := by
  have h : isNaN (realSub aNaN one) = true := realSub_nan (.inl (by decide))
  exact realAdd_nan (.inl (realMul_nan (.inl h)))

theorem test_witness_EverySymbolIsSliced :
    configOk (t2 [one]) = true ∧ (t2 [one]).slice = .reference ∧ 1 < (t2 [one]).ntone := by decide +kernel

theorem test_witness_CorrelatorFormula :
    configOk (t2 [one]) = true ∧ window2.length = (t2 [one]).nsym ∧ 1 < (t2 [one]).ntone ∧
    (t2 [one]).correlate = .reference := by decide +kernel

theorem test_witness_FirFormula : (t2 [one]).firApply = .reference ∧ 2 < [one, two, half].length := by decide

theorem test_witness_AngleAxesAndRange :
    (isNaN zero = false ∧ isNaN one = false ∧ isNaN infinity = false) ∧
    (isZero zero = true ∧ isZero 0x8000000000000000 = true) ∧ realLt 0 one = true ∧ realLt 0 infinity = true ∧
    realLt minusOne 0 = true := by decide

theorem test_witness_PhaseOnAxesAndDiagonals :
    Config.t1.num = .reference ∧ realLt 0 one = true ∧ isZero 0x8000000000000000 = true ∧
    isNaN one = false ∧ isNaN infinity = false := by decide

theorem test_witness_MeanPhaseIsRunningSum : [(⟨one, one⟩ : Cplx)] ≠ [] ∧ 2 ^ 53 - 1 < 2 ^ 53 := by decide

theorem test_witness_FiniteRealsRoundToThemselves :
    isFinite 0x8000000000000001 = true ∧ isFinite 0x7FEFFFFFFFFFFFFF = true ∧ Config.t1.num = .reference ∧
    isZero one = false ∧ unitsOf one + unitsOf minusOne = 0 ∧ unitsOf one - unitsOf minusOne ≠ 0 := by
  decide +kernel

/-- A value between two reals; the midpoint between 1 and the next real, which rounds to 1; the largest value that
stays finite and the least that does not. -/
theorem test_witness_RoundingIsToNearest :
    (0 < 3 ∧ 2 ^ 1074 < (2 ^ 54 - 1) * 2 ^ 2044 * 3 ∧ isFinite (roundUnits false (2 ^ 1074) 3) = true) ∧
    (roundUnits true (2 ^ 1074 + 2 ^ 1021) 1 = minusOne ∧ magnitude 0x3FF0000000000001 ≠ magnitude minusOne ∧
      magnitude 0x3FF0000000000001 - (2 ^ 1074 + 2 ^ 1021) = 2 ^ 1074 + 2 ^ 1021 - magnitude minusOne) ∧
    roundUnits false ((2 ^ 54 - 1) * 2 ^ 2044 - 1) 1 = 0x7FEFFFFFFFFFFFFF ∧
    roundUnits false ((2 ^ 54 - 1) * 2 ^ 2044) 1 = infinity := by decide +kernel

theorem test_witness_FreshBlockHasInvariant : configOk (t2 [one]) = true := by decide +kernel

/-- A block inside RUN 0, one block into its second interval. -/
def running : State :=
  { feed (demodulating (t1 [half])) [[one]] with
    run := some ⟨0, 0⟩, symcnt := 1, blktot := 3, ncorr := 1, bitcnt := 3, err := [⟨one, one⟩],
    out := [[false], [true], [false]], pulled := 22 }

theorem test_witness_BlockInv_running : BlockInv running where
  config := by decide
  modes :=
    { cause_failed := by decide
      filter_length := by decide
      eq_before := by decide
      eq_after := by decide
      exhausted_ends := by decide
      done_exhausted := by decide
      underrun_exhausted := by decide
      mismatch_cause := by decide
      run_turns := by rintro r ⟨⟩; decide
      pre_pulls_nothing := by decide }
  counts :=
    { symcnt_below := by decide
      idle_before := by decide
      ratios := by decide
      ratios_failed := by decide
      bits := by decide
      tuple_bits := by decide
      tuples := by decide
      tuples_failed := nofun
      intervals := by decide }

theorem test_witness_StepKeepsInvariant : ∃ s t, BlockInv s ∧ step s = .next t :=
  ⟨running, { running with
      mode := .done, exhausted := true, pulled := 23, run := none, samplerIn := [] },
    test_witness_BlockInv_running, step_of_after (by decide)⟩

theorem test_witness_EnvironmentKeepsInvariant : ∃ (_ : EnvEvent) (s : State), BlockInv s :=
  ⟨.assertReset, running, test_witness_BlockInv_running⟩

theorem test_witness_ModeOnlyMovesForward :
    ∃ s t, step s = .next t ∧ ¬ ResetsNext s ∧ s.mode = .demodulating ∧ t.mode = .done :=
  ⟨running, { running with
      mode := .done, exhausted := true, pulled := 23, run := none, samplerIn := [] },
    step_of_after (by decide), not_resetsNext (by decide) (by decide), rfl, rfl⟩

theorem test_witness_TerminalModesAreAbsorbing :
    ∃ s t, step s = .next t ∧ ¬ ResetsNext s ∧ s.mode.terminal = true ∧ s.run = none :=
  ⟨issue done [0x04000000], done, step_of_after (by decide), not_resetsNext (by decide) (by decide), rfl, rfl⟩

theorem test_witness_SamplerTripleHasThreeWriters :
    ∃ s t, step s = .next t ∧ ¬ ResetsNext s ∧ t.freq ≠ s.freq :=
  ⟨issue State.reset [0x02000000, 0xEB1C432D, 0x3EFA36E2],
    { State.reset with freq := 0x3FEFFFCB923A29C7, mode := .training },
    step_of_after (by decide +kernel), not_resetsNext (by decide) (by decide), by decide⟩

theorem test_witness_OutIsAppendOnly :
    ∃ s t, step s = .next t ∧ ¬ ResetsNext s ∧ t.out ≠ s.out :=
  ⟨sink (feed (issue (demodulating (t1 [half])) [0x05000000]) [window1]) [.ok],
    { demodulating (t1 [half]) with
      err := [⟨one, one⟩], out := [[false]], bitcnt := 1, blktot := 1, symcnt := 1, pulled := 4 },
    step_of_after (by decide +kernel), not_resetsNext (by decide) (by decide), by decide⟩

theorem test_witness_OnlyRdregResponds : ∃ s t, step s = .next t ∧ t.resp ≠ s.resp :=
  ⟨issue State.reset [0x01000001], { State.reset with resp := [0] }, step_of_after (by decide), by decide⟩

theorem test_witness_ConfigurationIsFixed : ∃ s t, step s = .next t :=
  ⟨issue done [0x08000000], State.fresh (t1 [half]), step_of_after (by decide)⟩

theorem test_witness_FaultLeavesLoopUnchanged :
    ∃ s t, step s = .next t ∧ s.mode ≠ .failed ∧ t.mode = .failed :=
  ⟨issue (demodulating (t1 [half])) [0x04000000],
    { demodulating (t1 [half]) with mode := .failed, cause := .illegalCommand },
    step_of_after (by decide), by decide, rfl⟩

theorem test_witness_TelemetryIsNotFeedback :
    ∃ s s' t t', s ≠ s' ∧ withoutTelemetry s = withoutTelemetry s' ∧ step s = .next t ∧ step s' = .next t' :=
  ⟨issue State.reset [0x01000008], issue { State.reset with blktot := 5 } [0x01000008],
    { State.reset with resp := [0] }, { State.reset with blktot := 5, resp := [5] },
    by decide, by decide, step_of_after (by decide), step_of_after (by decide)⟩

theorem test_witness_RatioFormula : Config.t1.ratio = .reference := by decide

end Sys2Proof.Tests
end

section
/-! The configuration through a step (00_scope R8, R10): no shared operation, no command and no step writes it, and
a step refuses one that is not well-formed. -/

namespace Sys2Proof.Machine

/-! ## What leaves the configuration alone -/

@[simp] theorem illegalCommand_cfg (s : State) : (illegalCommand s).cfg = s.cfg := by
  rcases illegalCommand_cases s with ⟨-, h⟩ | ⟨-, h⟩
  · rw [h]
  · rw [h, raiseFault_cfg]

@[simp] theorem executeIllegal_cfg (why : Reject) (s : State) : (executeIllegal why s).cfg = s.cfg := by
  cases why with
  | reservedOpcode op => exact illegalCommand_cfg s
  | mustBeZero op =>
    simp only [executeIllegal]
    split
    · rw [illegalCommand_cfg, respond_cfg]
    · exact illegalCommand_cfg s

@[simp] theorem trainGate_cfg (hnew : List Real64) (errors : Nat) (s : State) :
    (trainGate hnew errors s).cfg = s.cfg := by
  rcases trainGate_cases hnew errors s with ⟨-, h⟩ | ⟨-, h⟩
  · rw [h]
  · rw [h, raiseFault_cfg]

@[simp] theorem trainSession_cfg (s : State) : (trainSession s).cfg = s.cfg := by
  obtain ⟨k, ex, as, g, ⟨h, -⟩ | ⟨h, -⟩ | ⟨cap, -, -, -, h⟩⟩ := trainSession_cases s
  · rw [h, raiseFault_cfg, pullEffect_cfg]
  · rw [h, raiseFault_cfg, pullEffect_cfg]
  · rw [h, trainGate_cfg, pullEffect_cfg]

@[simp] theorem symStep_cfg (s : State) : (symStep s).cfg = s.cfg := by
  obtain ⟨-, -, -, hcfg⟩ := symStep_cmds_resp s
  exact hcfg

@[simp] theorem runTurn_cfg (n i : BitVec 24) (s : State) : (runTurn n i s).cfg = s.cfg := by
  rcases runTurn_cases n i s with ⟨-, h⟩ | ⟨-, r, h, -⟩
  · rw [h]
  · rw [h, ← symStep_cfg s]

/-! ## Commands and steps -/

/-- No command writes the configuration (10_state R34). -/
theorem exec_cfg {i : Instr} {s t : State} (h : exec i s = .next t) : t.cfg = s.cfg := by
  rcases exec_cases h with ⟨-, rfl⟩ | ⟨r, -, ⟨v, -, rfl⟩ | ⟨-, rfl⟩⟩ | ⟨d, -, -, rfl⟩ | ⟨-, -, rfl⟩ | ⟨-, -, rfl⟩ |
    ⟨n, -, -, rfl⟩ | ⟨c, cause, -, -, -, rfl⟩ | ⟨-, rfl⟩ | ⟨-, -, rfl⟩
  case inl => rfl
  all_goals simp only [respond_cfg, illegalCommand_cfg, adjustFreq_cfg, trainSession_cfg, symStep_cfg, runTurn_cfg,
    raiseFault_cfg, sessionReset_cfg]

/-- No step writes the configuration (00_scope R8). -/
theorem step_cfg {s t : State} (h : step s = .next t) : t.cfg = s.cfg := by
  obtain ⟨-, ⟨-, rfl⟩ | ⟨-, r, -, rfl⟩ | ⟨-, -, i, rest, -, he⟩ | ⟨-, -, why, rest, -, rfl⟩ | ⟨-, -, -, rfl⟩⟩ :=
    step_cases h
  · exact resetInput_cfg s
  · exact runTurn_cfg r.n r.i s
  · rw [exec_cfg he]
  · exact executeIllegal_cfg why _
  · rfl

/-- The check of the configuration comes before everything else a step does (00_scope R10, 70_reset R254). -/
theorem step_of_not_configOk {s : State} (h : configOk s.cfg = false) :
    step s = .refused .illFormedConfiguration :=
  if_pos h

/-! ## The statements -/

/-- Settles O57: each thing a step can do leaves the configuration alone. -/
theorem configurationIsFixed : Obligations.ConfigurationIsFixed :=
  fun _ _ => step_cfg

/-- Settles O13: the check is the first test of a step. -/
theorem illFormedConfigurationIsRefused : Obligations.IllFormedConfigurationIsRefused :=
  fun _ => step_of_not_configOk

end Sys2Proof.Machine
end

section
/-! What a step can do to the session (10_state R34 to R37). The pending words, the responses and the choices of the
outside world are no part of it; a step makes one of six changes to the rest, or none. -/

namespace Sys2Proof.Machine

/-! ## The session -/

theorem SameSession.eq {s t : State} (h : SameSession s t) : sessionOf s t = s := h
theorem SameSession.mode {s t : State} (h : SameSession s t) : t.mode = s.mode := (congrArg State.mode h.eq :)
theorem SameSession.run {s t : State} (h : SameSession s t) : t.run = s.run := (congrArg State.run h.eq :)
theorem SameSession.freq {s t : State} (h : SameSession s t) : t.freq = s.freq := (congrArg State.freq h.eq :)
theorem SameSession.offset {s t : State} (h : SameSession s t) : t.offset = s.offset := (congrArg State.offset h.eq :)
theorem SameSession.filter {s t : State} (h : SameSession s t) : t.h = s.h := (congrArg State.h h.eq :)

/-- A fault entry reads nothing that is outside the session. -/
theorem SameSession.raiseFault {s t : State} (h : SameSession s t) (c : Cause) :
    SameSession (raiseFault c s) (raiseFault c t) :=
  congrArg (Machine.raiseFault c) h

/-- The outside world writes no register (10_state R37). -/
theorem sameSession_apply (e : EnvEvent) (s : State) : SameSession s (e.apply s) := by
  cases e <;> rfl

/-! ## Causes -/

/-- The causes that say nothing of EXHAUSTED or TRAINERR (60_exceptions R220, R221): the host's three, the illegal
command and the unexpected error. -/
def Cause.Plain (c : Cause) : Prop := c ≠ .none ∧ c ≠ .underrun ∧ c ≠ .eqValidation

theorem plain_of_hostCause {c : BitVec 8} {cause : Cause} (h : hostCause c = some cause) : cause.Plain := by
  unfold hostCause at h
  split at h
  · cases h; exact ⟨nofun, nofun, nofun⟩
  · split at h
    · cases h; exact ⟨nofun, nofun, nofun⟩
    · split at h
      · cases h; exact ⟨nofun, nofun, nofun⟩
      · cases h

/-! ## A step -/

/-- A RUN in progress has turns left: it counts none, or it has made at least one and not all (42_demodulator R169). -/
def RunLoop.TurnsLeft (r : RunLoop) : Prop := (r.n = 0 ∧ r.i = 0) ∨ (0 < r.i.toNat ∧ r.i.toNat < r.n.toNat)

/-- Everything a step can do to the session of `s`. -/
inductive StepEffect (s : State) : State → Prop where
  /-- A reset: every register as in a fresh block (70_reset R251). -/
  | resets {t : State} (hr : ResetsNext s) (ht : SameSession (State.fresh s.cfg) t) : StepEffect s t
  /-- NOP, RDREG, a command ignored in a terminal mode, or no whole command there. -/
  | keeps {t : State} (ht : SameSession s t) : StepEffect s t
  /-- A RUN that the test of its loop ends before a turn. -/
  | endsRun : StepEffect s { s with run := none }
  /-- ABORT, or an illegal command. -/
  | faults {t : State} (c : Cause) (hc : c.Plain) (hm : s.mode.terminal = false)
      (ht : SameSession (raiseFault c s) t) : StepEffect s t
  /-- A legal FADJ. -/
  | adjusts (delta : Real64) (rest : List Word) (hd : decode s.cmds = .instr (.fadj delta) rest)
      (hm : s.mode = .pre) : StepEffect s (adjustFreq delta { s with cmds := rest })
  /-- A legal TRAIN. -/
  | trains (rest : List Word) (hd : decode s.cmds = .instr .train rest) (hm : s.mode = .training) :
      StepEffect s (trainSession { s with cmds := rest })
  /-- A SYM step, of SYM or of RUN, after which the RUN in progress is `r`. -/
  | demodulates (ws : List Word) (r : Option RunLoop) (hm : s.mode = .demodulating)
      (hr : ∀ l, r = some l → (symStep { s with cmds := ws }).mode = .demodulating ∧ l.TurnsLeft) :
      StepEffect s { symStep { s with cmds := ws } with run := r }

/-- An illegal command faults, or in a terminal mode does nothing. -/
theorem stepEffect_illegalCommand {s u : State} (h : SameSession s u) : StepEffect s (illegalCommand u) := by
  rcases illegalCommand_cases u with ⟨-, hi⟩ | ⟨hm, hi⟩
  · rw [hi]; exact .keeps h
  · rw [hi]; exact .faults .illegalCommand ⟨nofun, nofun, nofun⟩ (h.mode ▸ hm) (h.raiseFault _)

/-- A word that selects no row does what an illegal command does, after a response at most. -/
theorem stepEffect_executeIllegal (why : Reject) (ws : List Word) (s : State) :
    StepEffect s (executeIllegal why { s with cmds := ws }) := by
  cases why with
  | reservedOpcode op => exact stepEffect_illegalCommand rfl
  | mustBeZero op =>
    simp only [executeIllegal]
    split
    · exact stepEffect_illegalCommand rfl
    · exact stepEffect_illegalCommand rfl

/-- The loop of RUN goes on in DEMODULATING only, and with a count below the operand if there is one. -/
theorem runGoesOn_iff (n i : BitVec 24) (s : State) :
    runGoesOn n i s = true ↔ s.mode = .demodulating ∧ (n = 0 ∨ i.toNat < n.toNat) := by
  simp [runGoesOn, BitVec.ult]

/-- The count after a turn leaves turns, if the loop's test held before the turn and holds after it. -/
theorem turnsLeft_of_runGoesOn {n i : BitVec 24} {s t : State} (hs : runGoesOn n i s = true)
    (ht : runGoesOn n (if n = 0 then 0 else i + 1) t = true) :
    RunLoop.TurnsLeft ⟨n, if n = 0 then 0 else i + 1⟩ := by
  by_cases hn : n = 0
  · exact .inl ⟨hn, if_pos hn⟩
  · simp only [hn, if_false, runGoesOn_iff, false_or] at hs ht
    refine .inr ?_
    simp only [hn, if_false]
    have hlt := hs.2
    exact ⟨by bv_omega, ht.2⟩

/-- A turn of RUN's loop is a SYM step, or ends the loop. -/
theorem stepEffect_runTurn (n i : BitVec 24) (ws : List Word) {s : State} (hrun : s.cmds = ws ∨ s.run = none) :
    StepEffect s (runTurn n i { s with cmds := ws }) := by
  rcases runTurn_cases n i { s with cmds := ws } with ⟨-, h⟩ | ⟨hgo, r, h, hr⟩
  · rw [h]
    rcases hrun with rfl | hrun
    · exact .endsRun
    · exact .keeps (by simp only [SameSession, sessionOf, ← hrun])
  · rw [h]
    refine .demodulates ws r ((runGoesOn_iff _ _ _).1 hgo).1 fun l hl => ?_
    subst hl
    rcases hr with ⟨hgo', hl⟩ | ⟨-, hl⟩
    · obtain rfl : l = _ := by simpa using hl
      exact ⟨((runGoesOn_iff _ _ _).1 hgo').1, turnsLeft_of_runGoesOn hgo hgo'⟩
    · cases hl

/-- A SYM step makes no RUN. -/
theorem symStep_run_of_none {s : State} (h : s.run = none) : (symStep s).run = none := by
  obtain ⟨k, ex, as, g, -, ⟨w, ps, gs, -, -, -, he⟩ | ⟨-, -, he⟩ | ⟨-, he⟩ | ⟨w, j, ps, gs, -, -, -, -, he⟩⟩ :=
    symStep_cases s
  · rw [he]
    generalize hu : pushEffect _ ps gs _ = u
    have hrun : (countBlock u).run = none := by rw [← hu]; exact h
    rcases driftTrigger_cases (countBlock u) with ⟨-, ht⟩ | ⟨-, ht⟩
    · rw [ht]; exact hrun
    · rw [ht]; exact hrun
  · rw [he]; exact h
  · rw [he]; rfl
  · rw [he]; rfl

/-- A command whose words are taken makes one of the changes of `StepEffect`. -/
theorem stepEffect_exec {i : Instr} {rest : List Word} {s t : State} (hrun : s.run = none)
    (hd : decode s.cmds = .instr i rest) (h : exec i { s with cmds := rest } = .next t) : StepEffect s t := by
  rcases exec_cases h with ⟨-, rfl⟩ | ⟨r, -, ⟨v, -, rfl⟩ | ⟨-, rfl⟩⟩ | ⟨d, rfl, hm, rfl⟩ | ⟨rfl, hm, rfl⟩ |
    ⟨-, hm, rfl⟩ | ⟨n, -, -, rfl⟩ | ⟨c, cause, -, hc, hm, rfl⟩ | ⟨rfl, rfl⟩ | ⟨-, -, rfl⟩
  case inl => exact .keeps rfl
  · exact .keeps rfl
  · exact stepEffect_illegalCommand rfl
  · exact .adjusts d rest hd hm
  · exact .trains rest hd hm
  · refine .demodulates rest (symStep { s with cmds := rest }).run hm fun l hl => ?_
    have hnone : (symStep { s with cmds := rest }).run = none := symStep_run_of_none hrun
    cases hnone.symm.trans hl
  · exact stepEffect_runTurn n 0 rest (.inr hrun)
  · exact .faults cause (plain_of_hostCause hc) hm rfl
  · exact .resets (.inr ⟨hrun, rest, hd⟩) rfl
  · exact stepEffect_illegalCommand rfl

/-- Every step that answers a next state makes one of the changes of `StepEffect`. -/
theorem stepEffect_of_step {s t : State} (h : step s = .next t) : StepEffect s t := by
  obtain ⟨-, ⟨hr, rfl⟩ | ⟨-, r, -, rfl⟩ | ⟨-, hrun, i, rest, hd, he⟩ | ⟨-, -, why, rest, -, rfl⟩ | ⟨-, -, -, rfl⟩⟩ :=
    step_cases h
  · exact .resets (.inl hr) rfl
  · exact stepEffect_runTurn r.n r.i s.cmds (.inl rfl)
  · exact stepEffect_exec hrun hd he
  · exact stepEffect_executeIllegal why rest s
  · exact .keeps rfl

end Sys2Proof.Machine
end

section
/-! The mode (10_state R25) and the triple that the Sampler reads, FREQ, OFFSET and H (10_state R28, R29, R32, R37),
through a SYM step, a TRAIN and any other step. -/

namespace Sys2Proof.Machine

/-! ## The trigger of the drift correction -/

theorem driftTrigger_mode (s : State) : (driftTrigger s).mode = s.mode := by
  rcases driftTrigger_cases s with ⟨-, h⟩ | ⟨-, h⟩
  · rw [h, driftCorrection_mode]
  · rw [h]

theorem driftTrigger_h (s : State) : (driftTrigger s).h = s.h := by
  rcases driftTrigger_cases s with ⟨-, h⟩ | ⟨-, h⟩
  · rw [h, driftCorrection_h]
  · rw [h]

/-- `t` has the FREQ and OFFSET of `s`, or those that one drift correction makes of them with the mean it leaves in
LASTERR (43_drift_loop R184). -/
def CorrectedAtMost (s t : State) : Prop :=
  (t.freq = s.freq ∧ t.offset = s.offset) ∨
  (t.ncorr = s.ncorr + 1 ∧
    t.freq = numSub s.cfg s.freq (numDiv s.cfg (numMul s.cfg s.cfg.kfreq t.lasterr) s.cfg.fc) ∧
    t.offset = numSub s.cfg s.offset t.lasterr)

theorem correctedAtMost_driftTrigger (s : State) : CorrectedAtMost s (driftTrigger s) := by
  rcases driftTrigger_cases s with ⟨-, h⟩ | ⟨-, h⟩
  · exact .inr (by rw [h]; exact ⟨rfl, rfl, rfl⟩)
  · exact .inl (by rw [h]; exact ⟨rfl, rfl⟩)

/-! ## A SYM step -/

/-- A SYM step leaves the mode, or ends the session by exhaustion or by a fault (42_demodulator R161, R167). -/
theorem symStep_mode_cases (s : State) :
    (symStep s).mode = s.mode ∨ ((symStep s).mode = .done ∧ (symStep s).exhausted = true) ∨
    (symStep s).mode = .failed := by
  obtain ⟨k, ex, as, g, -, ⟨w, ps, gs, -, -, -, h⟩ | ⟨hex, -, h⟩ | ⟨-, h⟩ | ⟨w, j, ps, gs, -, -, -, -, h⟩⟩ :=
    symStep_cases s
  · exact .inl (by rw [h, driftTrigger_mode]; rfl)
  · exact .inr (.inl (by rw [h]; exact ⟨rfl, hex⟩))
  · exact .inr (.inr (by rw [h]; rfl))
  · exact .inr (.inr (by rw [h]; rfl))

/-- A SYM step installs no filter. -/
theorem symStep_h (s : State) : (symStep s).h = s.h := by
  obtain ⟨k, ex, as, g, -, ⟨w, ps, gs, -, -, -, h⟩ | ⟨-, -, h⟩ | ⟨-, h⟩ | ⟨w, j, ps, gs, -, -, -, -, h⟩⟩ :=
    symStep_cases s
  case inl => rw [h, driftTrigger_h]; rfl
  all_goals rw [h]; rfl

/-- A SYM step makes one drift correction at most: the trigger of a whole block is its only writer of FREQ and
OFFSET. -/
theorem correctedAtMost_symStep (s : State) : CorrectedAtMost s (symStep s) := by
  obtain ⟨k, ex, as, g, -, ⟨w, ps, gs, -, -, -, h⟩ | ⟨-, -, h⟩ | ⟨-, h⟩ | ⟨w, j, ps, gs, -, -, -, -, h⟩⟩ :=
    symStep_cases s
  case inl => rw [h]; exact correctedAtMost_driftTrigger (countBlock _)
  all_goals rw [h]; exact .inl ⟨rfl, rfl⟩

/-! ## TRAIN -/

/-- TRAIN leaves FREQ and OFFSET, and fails without a new filter or goes to DEMODULATING with one
(41_equalizer_trainer R149, R150). -/
theorem trainSession_outcomes (s : State) :
    (trainSession s).freq = s.freq ∧ (trainSession s).offset = s.offset ∧
    (((trainSession s).mode = .failed ∧ (trainSession s).run = none ∧ (trainSession s).h = s.h) ∨
     ((trainSession s).mode = .demodulating ∧ (trainSession s).eqValid = true)) := by
  obtain ⟨k, ex, as, g, ⟨h, -⟩ | ⟨h, -⟩ | ⟨cap, -, -, -, h⟩⟩ := trainSession_cases s
  · rw [h]; exact ⟨rfl, rfl, .inl ⟨rfl, rfl, rfl⟩⟩
  · rw [h]; exact ⟨rfl, rfl, .inl ⟨rfl, rfl, rfl⟩⟩
  · rw [h]
    rcases trainGate_cases (equalizeSignal s.cfg cap)
      (trainErrors s.cfg (firApply s.cfg (equalizeSignal s.cfg cap) cap)) (pullEffect k ex as g s) with
      ⟨-, hg⟩ | ⟨-, hg⟩
    · rw [hg]; exact ⟨rfl, rfl, .inr ⟨rfl, rfl⟩⟩
    · rw [hg]; exact ⟨rfl, rfl, .inl ⟨rfl, rfl, rfl⟩⟩

/-! ## The statements -/

/-- Settles O52: each change that a step can make, but for a reset, leaves MODE or makes the move that R25 names. -/
theorem modeOnlyMovesForward : Obligations.ModeOnlyMovesForward := by
  intro s t hstep hreset
  cases stepEffect_of_step hstep with
  | resets hr _ => exact absurd hr hreset
  | keeps ht => exact .inl ht.mode
  | endsRun => exact .inl rfl
  | faults c _ hm ht => exact .inr (.inr (.inr (.inr ⟨hm, ht.mode, ht.run⟩)))
  | adjusts delta rest hd hm => exact .inr (.inl ⟨hm, rfl, delta, rest, hd⟩)
  | trains rest hd hm =>
    obtain ⟨-, -, ⟨hf, hrun, -⟩ | ⟨hdem, heq⟩⟩ := trainSession_outcomes { s with cmds := rest }
    · exact .inr (.inr (.inr (.inr ⟨by rw [hm]; rfl, hf, hrun⟩)))
    · exact .inr (.inr (.inl ⟨hm, hdem, heq, rest, hd⟩))
  | demodulates ws r hm hr =>
    rcases symStep_mode_cases { s with cmds := ws } with h | ⟨h, hex⟩ | h
    · exact .inl h
    · exact .inr (.inr (.inr (.inl ⟨hm, h, hex⟩)))
    · have hrun : r = none := by
        cases r with
        | none => rfl
        | some l => cases h.symm.trans (hr l rfl).1
      exact .inr (.inr (.inr (.inr ⟨by rw [hm]; rfl, h, hrun⟩)))

/-- Settles O54: of the changes that a step can make, but for a reset, only FADJ's, TRAIN's and a SYM step's reach the
triple, and each of these at its one writing point. -/
theorem samplerTripleHasThreeWriters : Obligations.SamplerTripleHasThreeWriters := by
  intro s t hstep hreset
  cases stepEffect_of_step hstep with
  | resets hr _ => exact absurd hr hreset
  | keeps ht => exact ⟨.inl ht.freq, .inl ht.offset, .inl ht.filter⟩
  | endsRun => exact ⟨.inl rfl, .inl rfl, .inl rfl⟩
  | faults c _ _ ht => exact ⟨.inl ht.freq, .inl ht.offset, .inl ht.filter⟩
  | adjusts delta rest hd hm => exact ⟨.inr (.inl ⟨hm, delta, rest, hd, rfl⟩), .inl rfl, .inl rfl⟩
  | trains rest hd hm =>
    obtain ⟨hfreq, hoffset, ⟨-, -, hh⟩ | ⟨hdem, -⟩⟩ := trainSession_outcomes { s with cmds := rest }
    · exact ⟨.inl hfreq, .inl hoffset, .inl hh⟩
    · exact ⟨.inl hfreq, .inl hoffset, .inr ⟨hm, hdem, rest, hd⟩⟩
  | demodulates ws r hm _ =>
    have hh := symStep_h { s with cmds := ws }
    rcases correctedAtMost_symStep { s with cmds := ws } with ⟨hfreq, hoffset⟩ | ⟨hncorr, hfreq, hoffset⟩
    · exact ⟨.inl hfreq, .inl hoffset, .inl hh⟩
    · exact ⟨.inr (.inr ⟨hm, hncorr, hfreq⟩), .inr ⟨hm, hncorr, hoffset⟩, .inl hh⟩

end Sys2Proof.Machine
end

section
/-! The register space (10_state R22, R23; 20_memory R72). -/

namespace Sys2Proof.Machine

/-- Table S1 ends at TRAINERR. -/
theorem namedRegister_eq_none (s : State) {n : Nat} (h : 0x000D < n) : namedRegister s n = none := by
  unfold namedRegister
  split
  case h_15 => rfl
  all_goals omega

theorem readReg_of_lt (s : State) {r : BitVec 16} (h : r.toNat < 0x1000) :
    readReg r s = namedRegister s r.toNat := if_pos h

/-- The registers from 0x1000 on are the installed coefficients (10_state R32). -/
theorem readReg_coefficient (s : State) {r : BitVec 16} {k : Nat} (h : r.toNat = 0x1000 + k) :
    readReg r s = s.h[k]? := by
  rw [readReg, if_neg (by omega), h, Nat.add_sub_cancel_left]

/-- EQVALID is bit 0 and EXHAUSTED bit 1 (10_state R26). -/
theorem statusWord_setWidth (s : State) :
    (statusWord s).setWidth 64 = BitVec.ofNat 64 (s.eqValid.toNat + 2 * s.exhausted.toNat) := by
  unfold statusWord
  cases s.eqValid <;> cases s.exhausted <;> rfl

/-- A length below 2^32 is read whole (10_state R23). -/
theorem lengthWord_of_lt {n : Nat} (h : n < 2 ^ 32) : lengthWord n = BitVec.ofNat 64 n := by
  rw [lengthWord, BitVec.setWidth_ofNat_of_le_of_lt (by omega) h]

/-- Settles O15: a number below 0x1000 is looked up in table S1, any other in `H`. -/
theorem registerSpace : Obligations.RegisterSpace := by
  intro s
  refine ⟨rfl, ?mode, ?status, ?cause, rfl, rfl, ?symcnt, ?errn, rfl, rfl, rfl, rfl, ?ncoef, ?trainerr, ?hole, ?coef⟩
  case mode =>
    change some (s.mode.code.setWidth 64) = _
    cases s.mode <;> rfl
  case status => exact congrArg some (statusWord_setWidth s)
  case cause =>
    change some (s.cause.code.setWidth 64) = _
    cases s.cause <;> rfl
  case symcnt => exact congrArg some (BitVec.ofNat_toNat 64 s.symcnt).symm
  case errn => exact fun h => congrArg some (lengthWord_of_lt h)
  case ncoef => exact fun h => congrArg some (lengthWord_of_lt h)
  case trainerr => exact congrArg some (BitVec.ofNat_toNat 64 s.trainerr).symm
  case hole => exact fun r hlo hhi => by rw [readReg_of_lt s hhi, namedRegister_eq_none s hlo]
  case coef => exact fun r k h => readReg_coefficient s h

end Sys2Proof.Machine
end

section
/-! What a well-formed configuration gives the invariant: bounds (00_scope R10, 44_kernels R207), and a tuple of `BPS`
bits for every symbol (44_kernels R198, 42_demodulator R163). -/

namespace Sys2Proof.Machine

/-! ## A well-formed configuration -/

theorem configOk_parts {c : Config} (h : configOk c = true) : integersOk c = true ∧ shapesOk c = true := by
  simp only [configOk, Bool.and_eq_true] at h
  obtain ⟨⟨⟨⟨-, hints⟩, hshapes⟩, -⟩, -⟩ := h
  exact ⟨hints, hshapes⟩

theorem one_le_ntone_of_configOk {c : Config} (h : configOk c = true) : 1 ≤ c.ntone := by
  obtain ⟨-, -, -, -, -, hntone, -⟩ := of_decide_eq_true (configOk_parts h).1
  exact hntone

theorem baud_bounds_of_configOk {c : Config} (h : configOk c = true) : 1 ≤ c.baud ∧ c.baud < 2 ^ 32 := by
  obtain ⟨-, -, hpos, -, -, -, -, -, -, hlt, -⟩ := of_decide_eq_true (configOk_parts h).1
  exact ⟨hpos, hlt⟩

/-- The symbols of the training block are counted in 32 bits. -/
theorem trainingSymbols_lt_of_configOk {c : Config} (h : configOk c = true) : c.eqlen * c.ntone < 2 ^ 32 := by
  obtain ⟨-, -, -, -, -, -, -, -, -, -, -, hlt, -⟩ := of_decide_eq_true (configOk_parts h).1
  exact hlt

/-- `CONST` is not empty, `BITMAP` is as long, and its tuples have `BPS` bits. -/
theorem configOk_constellation {c : Config} (h : configOk c = true) :
    0 < c.const.length ∧ c.bitmap.length = c.const.length ∧ ∀ t ∈ c.bitmap, t.length = c.bps := by
  obtain ⟨hints, hshapes⟩ := configOk_parts h
  obtain ⟨-, -, -, -, -, -, -, -, hm, -⟩ := of_decide_eq_true hints
  simp only [shapesOk, Bool.and_eq_true, beq_iff_eq, List.all_eq_true] at hshapes
  obtain ⟨⟨⟨⟨⟨⟨⟨-, hconst⟩, hbitmap⟩, hbits⟩, -⟩, -⟩, -⟩, -⟩ := hshapes
  exact ⟨by rw [hconst, hm]; exact Nat.two_pow_pos c.bps, hbitmap.trans hconst.symm, hbits⟩

/-! ## The slicer -/

/-- The loop of `nearest` answers the best so far or the index of a point still to come. -/
theorem nearestFrom_lt (c : Config) (z : Cplx) (points : List Cplx) (i best : Nat) (dbest : Real64) (h : best < i) :
    nearestFrom c z i best dbest points < i + points.length := by
  induction points generalizing i best dbest with
  | nil => exact h
  | cons p ps ih =>
    have hlen : i + (p :: ps).length = i + 1 + ps.length := by rw [List.length_cons]; omega
    rw [hlen, nearestFrom]
    split
    · exact ih (i + 1) i _ (by omega)
    · exact ih (i + 1) best _ (by omega)

theorem nearest_lt_length (c : Config) {points : List Cplx} (z : Cplx) (h : 0 < points.length) :
    nearest c points z < points.length := by
  cases points with
  | nil => exact h
  | cons p ps => rw [List.length_cons, Nat.add_comm]; exact nearestFrom_lt c z ps 1 0 _ Nat.one_pos

theorem slice_lt_length {c : Config} (h : 0 < c.const.length) (z : Cplx) : slice c z < c.const.length := by
  unfold slice
  split
  · exact nearest_lt_length c z h
  · exact Nat.mod_lt _ h

theorem symbolTuple_length {c : Config} (h : configOk c = true) (z : Cplx) : (symbolTuple c z).length = c.bps := by
  obtain ⟨hpos, hlen, hbits⟩ := configOk_constellation h
  have hlt : slice c z < c.bitmap.length := by rw [hlen]; exact slice_lt_length hpos z
  rw [symbolTuple, List.getD_eq_getElem?_getD, List.getElem?_eq_getElem hlt, Option.getD_some]
  exact hbits _ (List.getElem_mem hlt)

/-! ## The trainer -/

@[simp] theorem equalizeSignal_length (c : Config) (signal : List Real64) :
    (equalizeSignal c signal).length = c.ncoef := by
  simp [equalizeSignal, finiteList]

theorem sum_le_length_mul {l : List Nat} {b : Nat} (h : ∀ n ∈ l, n ≤ b) : l.sum ≤ l.length * b := by
  induction l with
  | nil => exact Nat.zero_le _
  | cons n l ih =>
    have htail := ih fun k hk => h k (List.mem_cons_of_mem n hk)
    have hhead := h n List.mem_cons_self
    rw [List.sum_cons, List.length_cons, Nat.add_one_mul]
    omega

/-- At most every symbol of the training block is mismatched. -/
theorem trainErrors_le (c : Config) (y : List Real64) : trainErrors c y ≤ c.eqlen * c.ntone := by
  have hwindow : ∀ n ∈ (List.range c.eqlen).map fun k => (List.range c.ntone).countP fun t => trainMismatch c y k t,
      n ≤ c.ntone := by
    intro n hn
    obtain ⟨k, -, rfl⟩ := List.mem_map.1 hn
    exact Nat.le_trans List.countP_le_length (Nat.le_of_eq List.length_range)
  have hsum := sum_le_length_mul hwindow
  rw [List.length_map, List.length_range] at hsum
  exact hsum

/-- TRAINERR shows a mismatch exactly where there is one: the count fits its 32 bits (44_kernels R207). -/
theorem trainErrors_ofNat_ne_zero_iff {c : Config} (h : configOk c = true) (y : List Real64) :
    BitVec.ofNat 32 (trainErrors c y) ≠ 0 ↔ trainErrors c y ≠ 0 := by
  have hmod := Nat.mod_eq_of_lt (Nat.lt_of_le_of_lt (trainErrors_le c y) (trainingSymbols_lt_of_configOk h))
  refine not_congr ?_
  rw [← BitVec.toNat_inj, BitVec.toNat_ofNat, hmod]
  exact Iff.rfl

end Sys2Proof.Machine
end

section
/-! The invariant (10_state R24 to R33, 43_drift_loop R181, 60_exceptions R221, R225, 70_reset R264) through each of the
changes that a step can make. -/

namespace Sys2Proof.Machine

/-! ## The session alone -/

/-- The invariant reads nothing outside the session. -/
theorem SameSession.blockInv {s t : State} (h : SameSession s t) (hs : BlockInv s) : BlockInv t := by
  have hsession : BlockInv (sessionOf s t) := by rw [h.eq]; exact hs
  exact ⟨hsession.config, { hsession.modes with }, { hsession.counts with }⟩

/-- A fresh block has the invariant (70_reset R251). -/
theorem blockInv_fresh {c : Config} (h : configOk c = true) : BlockInv (State.fresh c) where
  config := h
  modes :=
    { cause_failed := by simp [State.fresh]
      filter_length := rfl
      eq_before := fun _ => rfl
      eq_after := by simp [State.fresh]
      exhausted_ends := nofun
      done_exhausted := nofun
      underrun_exhausted := nofun
      mismatch_cause := by simp [State.fresh]
      run_turns := nofun
      pre_pulls_nothing := fun _ => rfl }
  counts :=
    { symcnt_below := (baud_bounds_of_configOk h).1
      idle_before := fun _ => ⟨rfl, rfl, rfl, rfl, rfl, rfl, rfl⟩
      ratios := fun _ => (Nat.zero_mul _).symm
      ratios_failed := nofun
      bits := by simp [State.fresh]
      tuple_bits := nofun
      tuples := fun _ => by simp [State.fresh]
      tuples_failed := nofun
      intervals := by simp [State.fresh] }

/-! ## The RUN in progress -/

theorem BlockInv.withRun {s : State} (h : BlockInv s) {r : Option RunLoop}
    (hr : ∀ l, r = some l → s.mode = .demodulating ∧ l.TurnsLeft) : BlockInv { s with run := r } :=
  ⟨h.config, { h.modes with run_turns := hr }, { h.counts with }⟩

/-! ## Pulls -/

theorem CountInv.pull {s : State} (h : CountInv s) (k : Nat) (ex : Bool) (as : List PullAnswer) (g : Nat) :
    CountInv (pullEffect k ex as g s) := { h with }

/-- A pull that leaves EXHAUSTED, outside PRE. -/
theorem BlockInv.pull {s : State} (h : BlockInv s) (hm : s.mode ≠ .pre) (k : Nat) (as : List PullAnswer) (g : Nat) :
    BlockInv (pullEffect k s.exhausted as g s) :=
  ⟨h.config, { h.modes with pre_pulls_nothing := fun hp => absurd hp hm }, h.counts.pull _ _ _ _⟩

/-! ## Fault entries (60_exceptions R225, R226) -/

/-- A fault entry needs a cause, and what the cause says of EXHAUSTED and TRAINERR. -/
theorem modeInv_raiseFault {s : State} {c : Cause} (hh : s.h.length = if s.eqValid then s.cfg.ncoef else 0)
    (hc : c ≠ .none) (hu : c = .underrun → s.exhausted = true) (hm : c = .eqValidation ↔ s.trainerr ≠ 0) :
    ModeInv (raiseFault c s) where
  cause_failed := by simp [hc]
  filter_length := hh
  eq_before := by simp
  eq_after := by simp
  exhausted_ends _ := .inr rfl
  done_exhausted := nofun
  underrun_exhausted := hu
  mismatch_cause := hm
  run_turns := nofun
  pre_pulls_nothing := nofun

theorem CountInv.fault {s : State} (h : CountInv s) (hm : s.mode ≠ .failed) (hn : 1 ≤ s.cfg.ntone) (c : Cause) :
    CountInv (raiseFault c s) :=
  { h with
    idle_before := by simp
    ratios := fun hf => absurd rfl hf
    ratios_failed := fun _ => .inl (h.ratios hm)
    tuples := fun hf => absurd rfl hf
    tuples_failed := fun _ => ⟨0, hn, by simpa using h.tuples hm⟩ }

/-- No mismatch is counted outside FAILED. -/
theorem ModeInv.trainerr_eq_zero {s : State} (h : ModeInv s) (hm : s.mode ≠ .failed) : s.trainerr = 0 := by
  refine Decidable.byContradiction fun hne => ?_
  cases (h.cause_failed.2 hm).symm.trans (h.mismatch_cause.2 hne)

theorem Mode.ne_failed_of_not_terminal {m : Mode} (h : m.terminal = false) : m ≠ .failed := by
  rintro rfl
  cases h

/-- A fault that neither an underrun nor a mismatch raised. -/
theorem BlockInv.fault {s : State} (h : BlockInv s) (hm : s.mode ≠ .failed) {c : Cause} (hc : c.Plain) :
    BlockInv (raiseFault c s) := by
  obtain ⟨hnone, hunderrun, hmismatch⟩ := hc
  refine ⟨h.config, modeInv_raiseFault h.modes.filter_length hnone (fun hu => absurd hu hunderrun) ?_,
    h.counts.fault hm (one_le_ntone_of_configOk h.config) c⟩
  exact ⟨fun he => absurd he hmismatch, fun hne => absurd (h.modes.trainerr_eq_zero hm) hne⟩

/-! ## FADJ (40_host_commands R122) -/

theorem BlockInv.adjust {s : State} (h : BlockInv s) (hm : s.mode = .pre) (delta : Real64) :
    BlockInv (adjustFreq delta s) where
  config := h.config
  modes :=
    { h.modes with
      cause_failed := by simp [h.modes.cause_failed, hm]
      eq_before := fun _ => h.modes.eq_before (.inl hm)
      eq_after := by simp
      exhausted_ends := fun hex => by simpa [hm] using h.modes.exhausted_ends hex
      done_exhausted := nofun
      run_turns := fun r hr => by simpa [hm] using h.modes.run_turns r hr
      pre_pulls_nothing := nofun }
  counts :=
    { h.counts with
      idle_before := fun _ => h.counts.idle_before (.inl hm)
      ratios := fun _ => h.counts.ratios (by simp [hm])
      ratios_failed := nofun
      tuples := fun _ => h.counts.tuples (by simp [hm])
      tuples_failed := nofun }

/-! ## TRAIN (41_equalizer_trainer R148 to R150) -/

/-- The install: nothing was counted before it, and nothing is counted by it. -/
theorem BlockInv.install {s : State} (h : BlockInv s) (hm : s.mode = .training) {hnew : List Real64}
    (hlen : hnew.length = s.cfg.ncoef) :
    BlockInv { s with trainerr := 0, h := hnew, eqValid := true, mode := .demodulating } where
  config := h.config
  modes :=
    { h.modes with
      cause_failed := by simp [h.modes.cause_failed, hm]
      filter_length := hlen
      eq_before := by simp
      eq_after := fun _ => rfl
      exhausted_ends := fun hex => by simpa [hm] using h.modes.exhausted_ends hex
      done_exhausted := nofun
      mismatch_cause := by simp [h.modes.cause_failed.2 (by simp [hm])]
      run_turns := fun r hr => by simpa [hm] using h.modes.run_turns r hr
      pre_pulls_nothing := nofun }
  counts :=
    { h.counts with
      idle_before := by simp
      ratios := fun _ => h.counts.ratios (by simp [hm])
      ratios_failed := nofun
      tuples := fun _ => h.counts.tuples (by simp [hm])
      tuples_failed := nofun }

theorem BlockInv.gate {s : State} (h : BlockInv s) (hm : s.mode = .training) {hnew : List Real64}
    (hlen : hnew.length = s.cfg.ncoef) (y : List Real64) :
    BlockInv (trainGate hnew (trainErrors s.cfg y) s) := by
  have hfailed : s.mode ≠ .failed := by simp [hm]
  rcases trainGate_cases hnew (trainErrors s.cfg y) s with ⟨he, hg⟩ | ⟨he, hg⟩
  · rw [hg, he]
    exact h.install hm hlen
  · rw [hg]
    have hcounts : CountInv { s with trainerr := BitVec.ofNat 32 (trainErrors s.cfg y) } := { h.counts with }
    refine ⟨h.config, modeInv_raiseFault h.modes.filter_length nofun nofun ?_,
      hcounts.fault hfailed (one_le_ntone_of_configOk h.config) _⟩
    exact iff_of_true rfl ((trainErrors_ofNat_ne_zero_iff h.config y).2 he)

theorem BlockInv.train {s : State} (h : BlockInv s) (hm : s.mode = .training) : BlockInv (trainSession s) := by
  have hpre : s.mode ≠ .pre := by simp [hm]
  have hfailed : s.mode ≠ .failed := by simp [hm]
  obtain ⟨k, ex, as, g, ⟨ht, rfl⟩ | ⟨ht, rfl⟩ | ⟨cap, -, rfl, -, ht⟩⟩ := trainSession_cases s
  · rw [ht]
    refine ⟨h.config, modeInv_raiseFault h.modes.filter_length nofun (fun _ => rfl) ?_,
      (h.counts.pull k true as g).fault hfailed (one_le_ntone_of_configOk h.config) _⟩
    exact ⟨nofun, fun hne => absurd (h.modes.trainerr_eq_zero hfailed) hne⟩
  · rw [ht]
    exact (h.pull hpre k as g).fault hfailed ⟨nofun, nofun, nofun⟩
  · rw [ht]
    exact (h.pull hpre k as g).gate hm (equalizeSignal_length _ _) _

/-! ## A block (42_demodulator R163 to R168) -/

/-- A state in which a block's ratios are appended and the tuples `ts` of it are out, from one in which it is not
begun. -/
def emitBlock (zs : List Cplx) (ts : List BitTuple) (ps : List PushAnswer) (gs : Nat) (s : State) : State :=
  pushEffect ts ps gs (accumulate zs s)

/-- Appending, pushing and counting reach no register that the modes speak of. -/
theorem ModeInv.count {s : State} (h : ModeInv s) (zs : List Cplx) (ts : List BitTuple) (ps : List PushAnswer)
    (gs : Nat) : ModeInv (countBlock (emitBlock zs ts ps gs s)) := { h with }

/-- What holds of the counters when a block is out and counted, before the trigger's test: SYMCNT may be `baud`. -/
structure CountedInv (s : State) : Prop where
  symcnt_le : s.symcnt.toNat ≤ s.cfg.baud
  ratios : s.err.length = s.symcnt.toNat * s.cfg.ntone
  bits : s.bitcnt = BitVec.ofNat 64 (s.out.length * s.cfg.bps)
  tuple_bits : ∀ t ∈ s.out, t.length = s.cfg.bps
  tuples : BitVec.ofNat 64 s.out.length = s.blktot * BitVec.ofNat 64 s.cfg.ntone
  intervals : s.blktot = s.ncorr * BitVec.ofNat 64 s.cfg.baud + s.symcnt.setWidth 64

section
variable {s : State} {zs : List Cplx} {ts : List BitTuple}

theorem CountInv.err_emit (h : CountInv s) (hm : s.mode ≠ .failed) (hz : zs.length = s.cfg.ntone)
    (ps : List PushAnswer) (gs : Nat) :
    (emitBlock zs ts ps gs s).err.length = (s.symcnt.toNat + 1) * s.cfg.ntone := by
  simp [emitBlock, h.ratios hm, hz, Nat.add_mul]

theorem CountInv.bits_emit (h : CountInv s) (ps : List PushAnswer) (gs : Nat) :
    (emitBlock zs ts ps gs s).bitcnt = BitVec.ofNat 64 ((s.out ++ ts).length * s.cfg.bps) := by
  simp [emitBlock, h.bits, Nat.add_mul, BitVec.ofNat_add]

theorem CountInv.tuple_bits_emit (h : CountInv s) (ht : ∀ t ∈ ts, t.length = s.cfg.bps) :
    ∀ t ∈ s.out ++ ts, t.length = s.cfg.bps := fun t hmem =>
  (List.mem_append.1 hmem).elim (h.tuple_bits t) (ht t)

theorem CountInv.tuples_emit (h : CountInv s) (hm : s.mode ≠ .failed) :
    BitVec.ofNat 64 (s.out ++ ts).length =
      s.blktot * BitVec.ofNat 64 s.cfg.ntone + BitVec.ofNat 64 ts.length := by
  rw [List.length_append, BitVec.ofNat_add, h.tuples hm]

/-- A push that failed: the block's ratios stay, and so do the tuples that are out (60_exceptions R225). -/
theorem BlockInv.pushFault (h : BlockInv s) (hm : s.mode = .demodulating) (hz : zs.length = s.cfg.ntone)
    (ht : ∀ t ∈ ts, t.length = s.cfg.bps) (hlt : ts.length < s.cfg.ntone) (ps : List PushAnswer) (gs : Nat) :
    BlockInv (raiseFault .unexpected (emitBlock zs ts ps gs s)) := by
  have hfailed : s.mode ≠ .failed := by simp [hm]
  refine ⟨h.config, modeInv_raiseFault h.modes.filter_length nofun nofun ?_, ?_⟩
  · exact ⟨nofun, fun hne => absurd (h.modes.trainerr_eq_zero hfailed) hne⟩
  · exact
      { h.counts with
        idle_before := by simp
        ratios := fun hf => absurd rfl hf
        ratios_failed := fun _ => .inr (h.counts.err_emit (ts := ts) hfailed hz ps gs)
        bits := h.counts.bits_emit ps gs
        tuple_bits := h.counts.tuple_bits_emit ht
        tuples := fun hf => absurd rfl hf
        tuples_failed := fun _ => ⟨ts.length, hlt, h.counts.tuples_emit hfailed⟩ }

theorem bitVec_add_one_mul {w : Nat} (x y : BitVec w) : (x + 1) * y = x * y + y := by
  rw [BitVec.add_mul]
  exact congrArg (x * y + ·) (BitVec.one_mul y)

/-- SYMCNT counts the block without wrapping: it is below `baud`, which fits 32 bits. -/
theorem CountInv.symcnt_add_one (h : CountInv s) (hb : s.cfg.baud < 2 ^ 32) :
    (s.symcnt + 1).toNat = s.symcnt.toNat + 1 ∧ (s.symcnt + 1).setWidth 64 = s.symcnt.setWidth 64 + 1 := by
  have hlt := h.symcnt_below
  have hfits : s.symcnt.toNat + 1 < 2 ^ 32 := by omega
  exact ⟨by bv_omega, by bv_omega⟩

/-- A whole block counted: one more in BLKTOT and in SYMCNT (42_demodulator R168). -/
theorem BlockInv.count (h : BlockInv s) (hm : s.mode ≠ .failed) (hz : zs.length = s.cfg.ntone)
    (ht : ∀ t ∈ ts, t.length = s.cfg.bps) (hlen : ts.length = s.cfg.ntone) (ps : List PushAnswer) (gs : Nat) :
    CountedInv (countBlock (emitBlock zs ts ps gs s)) := by
  obtain ⟨hnat, hwide⟩ := h.counts.symcnt_add_one (baud_bounds_of_configOk h.config).2
  exact
    { symcnt_le := Nat.le_trans (Nat.le_of_eq hnat) h.counts.symcnt_below
      ratios := by
        change (emitBlock zs ts ps gs s).err.length = (s.symcnt + 1).toNat * s.cfg.ntone
        rw [hnat, h.counts.err_emit hm hz]
      bits := h.counts.bits_emit ps gs
      tuple_bits := h.counts.tuple_bits_emit ht
      tuples := by
        change BitVec.ofNat 64 (s.out ++ ts).length = (s.blktot + 1) * BitVec.ofNat 64 s.cfg.ntone
        rw [h.counts.tuples_emit hm, hlen, bitVec_add_one_mul]
      intervals := by
        change s.blktot + 1 = s.ncorr * BitVec.ofNat 64 s.cfg.baud + (s.symcnt + 1).setWidth 64
        rw [h.counts.intervals, hwide, BitVec.add_assoc] }

end

/-! ## The trigger (43_drift_loop R183, R184) -/

/-- A completed interval is one more correction, and the next one starts from nothing. -/
theorem CountedInv.correct {s : State} (h : CountedInv s) (hm : s.mode = .demodulating) (hb : 1 ≤ s.cfg.baud)
    (hfull : s.symcnt.toNat = s.cfg.baud) : CountInv (driftCorrection s) where
  symcnt_below := hb
  idle_before := by simp [hm]
  ratios _ := (Nat.zero_mul _).symm
  ratios_failed := by simp [hm]
  bits := h.bits
  tuple_bits := h.tuple_bits
  tuples _ := h.tuples
  tuples_failed := by simp [hm]
  intervals := by
    change s.blktot = (s.ncorr + 1) * BitVec.ofNat 64 s.cfg.baud + (0 : BitVec 32).setWidth 64
    rw [h.intervals, ← hfull, BitVec.ofNat_toNat, bitVec_add_one_mul]
    simp

/-- An interval that is not complete goes on. -/
theorem CountedInv.goOn {s : State} (h : CountedInv s) (hm : s.mode = .demodulating)
    (hless : s.symcnt.toNat ≠ s.cfg.baud) : CountInv s :=
  { h with
    symcnt_below := Nat.lt_of_le_of_ne h.symcnt_le hless
    idle_before := by simp [hm]
    ratios := fun _ => h.ratios
    ratios_failed := by simp [hm]
    tuples := fun _ => h.tuples
    tuples_failed := by simp [hm] }

theorem blockInv_driftTrigger {s : State} (hconfig : configOk s.cfg = true) (hmodes : ModeInv s)
    (hcounted : CountedInv s) (hm : s.mode = .demodulating) : BlockInv (driftTrigger s) := by
  rcases driftTrigger_cases s with ⟨hfull, ht⟩ | ⟨hless, ht⟩
  · rw [ht]
    exact ⟨hconfig, { hmodes with }, hcounted.correct hm (baud_bounds_of_configOk hconfig).1 hfull⟩
  · rw [ht]
    exact ⟨hconfig, hmodes, hcounted.goOn hm hless⟩

theorem BlockInv.wholeBlock {s : State} {zs : List Cplx} {ts : List BitTuple} (h : BlockInv s)
    (hm : s.mode = .demodulating) (hz : zs.length = s.cfg.ntone) (ht : ∀ t ∈ ts, t.length = s.cfg.bps)
    (hlen : ts.length = s.cfg.ntone) (ps : List PushAnswer) (gs : Nat) :
    BlockInv (driftTrigger (countBlock (emitBlock zs ts ps gs s))) :=
  blockInv_driftTrigger (s := countBlock (emitBlock zs ts ps gs s)) h.config (h.modes.count zs ts ps gs)
    (h.count (by simp [hm]) hz ht hlen ps gs) hm

/-! ## A SYM step (42_demodulator R160, R161) -/

/-- The end of the signal: the pull answered `short`. -/
theorem BlockInv.exhaust {s : State} (h : BlockInv s) (hm : s.mode = .demodulating) (k : Nat)
    (as : List PullAnswer) (g : Nat) :
    BlockInv { pullEffect k true as g s with mode := .done, run := none } where
  config := h.config
  modes :=
    { h.modes with
      cause_failed := by simp [h.modes.cause_failed, hm]
      eq_before := by simp
      eq_after := fun _ => h.modes.eq_after (.inl hm)
      exhausted_ends := fun _ => .inl rfl
      done_exhausted := fun _ => rfl
      underrun_exhausted := fun _ => rfl
      run_turns := nofun
      pre_pulls_nothing := nofun }
  counts :=
    { h.counts with
      idle_before := by simp
      ratios := fun _ => h.counts.ratios (by simp [hm])
      ratios_failed := nofun
      tuples := fun _ => h.counts.tuples (by simp [hm])
      tuples_failed := nofun }

/-- A block's tuples have `BPS` bits each. -/
theorem blockTuples_bits {c : Config} (h : configOk c = true) (zs : List Cplx) :
    ∀ t ∈ zs.map (symbolTuple c), t.length = c.bps := by
  intro t ht
  obtain ⟨z, -, rfl⟩ := List.mem_map.1 ht
  exact symbolTuple_length h z

/-- A SYM step keeps the invariant, a RUN in progress aside: whether it goes on is for the loop's test to say. -/
theorem BlockInv.sym {s : State} (h : BlockInv s) (hm : s.mode = .demodulating) :
    BlockInv { symStep s with run := none } := by
  have hpre : s.mode ≠ .pre := by simp [hm]
  have hfailed : s.mode ≠ .failed := by simp [hm]
  obtain ⟨k, ex, as, g, -, ⟨w, ps, gs, -, -, rfl, hs⟩ | ⟨rfl, -, hs⟩ | ⟨rfl, hs⟩ |
    ⟨w, j, ps, gs, hj, -, -, rfl, hs⟩⟩ := symStep_cases s
  · rw [hs]
    have hblock := (h.pull hpre k as g).wholeBlock hm (blockSymbols_length s.cfg w)
      (blockTuples_bits h.config (blockSymbols s.cfg w)) (by simp) ps gs
    exact hblock.withRun (r := none) nofun
  · rw [hs]
    exact h.exhaust hm k as g
  · rw [hs]
    exact (h.pull hpre k as g).fault hfailed ⟨nofun, nofun, nofun⟩
  · rw [hs]
    refine (h.pull hpre k as g).pushFault hm (blockSymbols_length s.cfg w) (fun t ht => ?_) ?_ ps gs
    · exact blockTuples_bits h.config (blockSymbols s.cfg w) t (List.mem_of_mem_take ht)
    · rw [List.length_take]; exact Nat.lt_of_le_of_lt (Nat.min_le_left _ _) hj

/-! ## The statements -/

/-- Settles O50: a reset makes the registers those of a fresh block, and each other change that a step can make keeps
the invariant. -/
theorem stepKeepsInvariant : Obligations.StepKeepsInvariant := by
  intro s t h hstep
  have hwords : ∀ ws, BlockInv { s with cmds := ws } := fun ws => SameSession.blockInv (s := s) rfl h
  cases stepEffect_of_step hstep with
  | resets _ ht => exact ht.blockInv (blockInv_fresh h.config)
  | keeps ht => exact ht.blockInv h
  | endsRun => exact h.withRun nofun
  | faults c hc hm ht => exact ht.blockInv (h.fault (Mode.ne_failed_of_not_terminal hm) hc)
  | adjusts delta rest _ hm => exact (hwords rest).adjust hm delta
  | trains rest _ hm => exact (hwords rest).train hm
  | demodulates ws r hm hr => exact ((hwords ws).sym hm).withRun hr

/-- Settles O51: an event of the outside world leaves the session, which is all that the invariant reads. -/
theorem environmentKeepsInvariant : Obligations.EnvironmentKeepsInvariant :=
  fun e s => (sameSession_apply e s).blockInv

end Sys2Proof.Machine
end

section
/-! The byte-wide command transport (20_memory R69, log 24). -/

namespace Sys2Proof

/-- The four bytes of a word, least significant first, make that word. -/
theorem wordOfBytes_extract (w : Word) :
    wordOfBytes (w.extractLsb' 0 8) (w.extractLsb' 8 8) (w.extractLsb' 16 8) (w.extractLsb' 24 8) = w := by
  have h16 : w.extractLsb' 24 8 ++ w.extractLsb' 16 8 = w.extractLsb' 16 16 :=
    BitVec.extractLsb'_append_extractLsb'_eq_extractLsb' rfl
  have h24 : w.extractLsb' 16 16 ++ w.extractLsb' 8 8 = w.extractLsb' 8 24 :=
    BitVec.extractLsb'_append_extractLsb'_eq_extractLsb' rfl
  have h32 : w.extractLsb' 8 24 ++ w.extractLsb' 0 8 = w.extractLsb' 0 32 :=
    BitVec.extractLsb'_append_extractLsb'_eq_extractLsb' rfl
  rw [wordOfBytes, h16, h24, h32, BitVec.extractLsb'_eq_self]

/-- A whole word in front of the transport is the first word read. -/
theorem wordsOfBytes_bytesOfWord_append (w : Word) (bs : List Byte) :
    wordsOfBytes (bytesOfWord w ++ bs) = (w :: (wordsOfBytes bs).1, (wordsOfBytes bs).2) := by
  change (wordOfBytes _ _ _ _ :: (wordsOfBytes bs).1, (wordsOfBytes bs).2) = _
  rw [wordOfBytes_extract]

/-- Fewer than four bytes are no word yet, and stay. -/
theorem wordsOfBytes_of_length_lt {bs : List Byte} (h : bs.length < 4) : wordsOfBytes bs = ([], bs) := by
  unfold wordsOfBytes
  split
  · simp only [List.length_cons] at h; omega
  · rfl

theorem bytesOfWord_toNat (w : Word) : (bytesOfWord w).map BitVec.toNat =
    [w.toNat % 256, w.toNat / 256 % 256, w.toNat / 65536 % 256, w.toNat / 16777216] := by
  have htop : w.toNat / 16777216 % 256 = w.toNat / 16777216 := by
    have := w.isLt
    omega
  simp [bytesOfWord, BitVec.extractLsb'_toNat, Nat.shiftRight_eq_div_pow, htop]

/-- Settles O7: by induction on the words, each of which is read back from its own four bytes. -/
theorem byteTransportKeepsWords : Obligations.ByteTransportKeepsWords := by
  refine ⟨fun ws tail htail => ?_, bytesOfWord_toNat⟩
  induction ws with
  | nil => exact wordsOfBytes_of_length_lt htail
  | cons w ws ih => rw [List.flatMap_cons, List.append_assoc, wordsOfBytes_bytesOfWord_append, ih]

end Sys2Proof
end

section
/-! The step that takes a command (20_memory R61), and a command issued ahead of everything pending (log 14). -/

namespace Sys2Proof

/-- What the decoder made of the pending words, with `ws` as the words after the command. -/
def Decoded.withRest (ws : List Word) : Decoded → Decoded
  | .instr i _ => .instr i ws
  | .illegal why _ => .illegal why ws
  | .needMore => .needMore

theorem formatZ_withRest (w : Word) (i : Instr) (rest ws : List Word) :
    (formatZ w i rest).withRest ws = formatZ w i ws := by
  unfold formatZ
  split <;> rfl

/-- No command of one word reads the words after it. -/
theorem decodeOne_withRest (w : Word) (rest ws : List Word) :
    (decodeOne w rest).withRest ws = decodeOne w ws := by
  unfold decodeOne
  split
  case h_1 => exact formatZ_withRest w .nop rest ws
  case h_2 => split <;> rfl
  case h_3 => exact formatZ_withRest w .train rest ws
  case h_4 => exact formatZ_withRest w .sym rest ws
  case h_5 => rfl
  case h_6 => split <;> rfl
  case h_7 => exact formatZ_withRest w .reset rest ws
  case h_8 => rfl

/-- A word and as many extension words as its opcode asks for are one command, whatever follows (30_encoding R90). -/
theorem decode_append_of_whole {w : Word} {ext : List Word} (h : ext.length = extensionWords (opField w))
    (ws : List Word) : decode (w :: ext ++ ws) = (decode (w :: ext)).withRest ws := by
  by_cases hop : opField w = 0x02
  · rw [extensionWords, if_pos hop] at h
    obtain ⟨ext0, ext1, rfl⟩ : ∃ ext0 ext1, ext = [ext0, ext1] :=
      match ext, h with
      | [ext0, ext1], _ => ⟨ext0, ext1, rfl⟩
    simp only [decode, List.cons_append, List.nil_append, if_pos hop, formatZ_withRest]
  · rw [extensionWords, if_neg hop] at h
    obtain rfl := List.eq_nil_of_length_eq_zero h
    simp only [decode, List.cons_append, List.nil_append, if_neg hop, decodeOne_withRest]

/-- The words of a row of the opcode table are one command, whatever follows. -/
theorem decode_wordsOfTable_append {nbits w : Nat} {i : Instr} (h : decodeTableWord nbits w = some i)
    (ws : List Word) : decode (wordsOfTable nbits w ++ ws) = .instr i ws := by
  have hwhole : decode (wordsOfTable nbits w ++ ws) = (decode (wordsOfTable nbits w)).withRest ws :=
    decode_append_of_whole (by simp) ws
  unfold decodeTableWord at h
  split at h
  case h_1 j rest hd =>
    obtain rfl : j = i := Option.some.inj h
    rw [hwhole, hd, Decoded.withRest]
  case h_2 => cases h

end Sys2Proof

namespace Sys2Proof.Machine

theorem fetch_of_decode {s : State} {i : Instr} {rest : List Word} (h : decode s.cmds = .instr i rest) :
    fetch s = .command i { s with cmds := rest } := by
  rw [fetch, h]

/-- Settles O8: with nothing before it, the first pending command is fetched and executed. -/
theorem stepRunsDecodedCommand : Obligations.StepRunsDecodedCommand := by
  intro s i rest hconfig hreset hrun hd
  simp only [step, hconfig, hreset, hrun, fetch_of_decode hd, Bool.true_eq_false, Bool.false_eq_true, if_false]

/-- Settles O9: the words issued first are one command, which the next step takes. -/
theorem fetchWordRunsNext : Obligations.FetchWordRunsNext := fun s nbits w i hconfig hi =>
  stepRunsDecodedCommand (s.withFetchWord nbits w) i s.cmds hconfig rfl rfl (decode_wordsOfTable_append hi s.cmds)

end Sys2Proof.Machine
end

section
/-! Pulls of the Sampler (20_memory R62, R63) and rows of pushes (20_memory R64), for answers that are chosen. -/

namespace Sys2Proof.Machine

/-! ## Pulls -/

/-- A reported failure or a sample that is not finite: `error`, however many samples came (60_exceptions R224). -/
theorem pullStatus_of_failed {n : Nat} {a : PullAnswer}
    (h : a.failed = true ∨ ∃ x ∈ a.samples.take n, isFinite x = false) : pullStatus n a = .error := by
  have herr : (a.failed || !(a.samples.take n).all isFinite) = true := by
    rcases h with hf | ⟨x, hx, hfin⟩
    · rw [hf, Bool.true_or]
    · have hall : (a.samples.take n).all isFinite = false := List.all_eq_false.2 ⟨x, hx, by simp [hfin]⟩
      rw [hall, Bool.not_false, Bool.or_true]
  exact if_pos herr

/-- With no failure and every sample finite, the number of samples decides. -/
theorem pullStatus_of_clean {n : Nat} {a : PullAnswer} (hf : a.failed = false)
    (hfin : ∀ x ∈ a.samples.take n, isFinite x = true) :
    pullStatus n a = if (a.samples.take n).length < n then .short else .ok := by
  have hall : (a.samples.take n).all isFinite = true := List.all_eq_true.2 hfin
  simp only [pullStatus, hf, hall, Bool.not_true, Bool.or_false, Bool.false_eq_true, if_false]

theorem samplerTake_zero (s : State) : samplerTake 0 s = ([], .ok, s) := if_pos rfl

theorem samplerTake_of_exhausted {n : Nat} {s : State} (hn : 0 < n) (hex : s.exhausted = true) :
    samplerTake n s = ([], .short, s) := by
  rw [samplerTake, if_neg (Nat.ne_of_gt hn), if_pos hex]

/-- A pull that a chosen answer `a` meets. -/
theorem samplerTake_of_answer {n : Nat} {s : State} {a : PullAnswer} {as : List PullAnswer} (hn : 0 < n)
    (hex : s.exhausted = false) (hin : s.samplerIn = a :: as) :
    samplerTake n s = takeAnswer n a { s with samplerIn := as } := by
  have hask : askSampler n s = (a, { s with samplerIn := as }) := by rw [askSampler, hin]
  rw [samplerTake, if_neg (Nat.ne_of_gt hn), if_neg (by rw [hex]; exact Bool.false_ne_true), hask]

/-- Settles O24: the status follows from the answer, and the status says what is counted and remembered. -/
theorem pullStatusAndCount : Obligations.PullStatusAndCount := by
  intro n a as s hn hex hin
  rw [samplerTake_of_answer hn hex hin]
  refine ⟨fun h => ?error, fun hf hfin hlt => ?short, fun hf hfin heq => ?ok⟩
  case error => rw [takeAnswer, pullStatus_of_failed h]
  case short => rw [takeAnswer, pullStatus_of_clean hf hfin, if_pos hlt]; rfl
  case ok => rw [takeAnswer, pullStatus_of_clean hf hfin, if_neg (by omega)]

/-- Settles O25: neither pull reaches the Sampler. -/
theorem exhaustionIsSticky : Obligations.ExhaustionIsSticky :=
  fun s => ⟨samplerTake_zero s, fun hex _ hn => samplerTake_of_exhausted hn hex⟩

/-! ## Pushes -/

theorem bitPush_of_ok {s : State} {as : List PushAnswer} (t : BitTuple) (h : s.sinkIn = .ok :: as) :
    bitPush t s = (.ok, pushEffect [t] as s.sinkState s) := by
  simp [bitPush, askSink, h, pushEffect]

theorem bitPush_of_error {s : State} {as : List PushAnswer} (t : BitTuple) (h : s.sinkIn = .error :: as) :
    bitPush t s = (.error, { s with sinkIn := as }) := by
  simp [bitPush, askSink, h]

/-- While the sink accepts, a row of pushes is out and counted tuple by tuple, and goes on. -/
theorem pushAll_append_of_ok {ts : List BitTuple} (us : List BitTuple) {as : List PushAnswer} {s : State}
    (h : s.sinkIn = List.replicate ts.length .ok ++ as) :
    pushAll (ts ++ us) s = pushAll us (pushEffect ts as s.sinkState s) := by
  induction ts generalizing s with
  | nil =>
    obtain rfl : s.sinkIn = as := h
    simp [pushEffect]
  | cons t ts ih =>
    have hpush := bitPush_of_ok t (h : s.sinkIn = .ok :: (List.replicate ts.length .ok ++ as))
    rw [List.cons_append, pushAll, hpush]
    exact (ih rfl).trans (by rw [pushEffect_pushEffect]; rfl)

/-- A push answered `error` ends the row: the tuples after it are not offered (60_exceptions R224). -/
theorem pushAll_cons_of_error {s : State} {as : List PushAnswer} (t : BitTuple) (ts : List BitTuple)
    (h : s.sinkIn = .error :: as) : pushAll (t :: ts) s = (.error, { s with sinkIn := as }) := by
  rw [pushAll, bitPush_of_error t h]

/-- Settles O27: the accepted tuples are out; the next one, if there is one, is answered `error`. -/
theorem pushesStopAtFirstError : Obligations.PushesStopAtFirstError := by
  intro ts j as s
  refine ⟨fun hj hin => ?error, fun hin => ?ok⟩
  case error =>
    have hlen : (ts.take j).length = j := List.length_take_of_le (Nat.le_of_lt hj)
    have hsplit : ts = ts.take j ++ ts[j] :: ts.drop (j + 1) := by
      rw [← List.drop_eq_getElem_cons hj, List.take_append_drop]
    calc pushAll ts s
        = pushAll (ts[j] :: ts.drop (j + 1)) (pushEffect (ts.take j) (.error :: as) s.sinkState s) := by
          rw [← pushAll_append_of_ok _ (by rw [hlen]; exact hin), ← hsplit]
      _ = (.error, pushEffect (ts.take j) as s.sinkState s) := pushAll_cons_of_error _ _ rfl
      _ = _ := by rw [pushEffect, hlen]
  case ok =>
    have hall := pushAll_append_of_ok [] hin
    rw [List.append_nil] at hall
    exact hall

end Sys2Proof.Machine
end

section
/-! What a step does to EXHAUSTED (20_memory R63, 10_state R26) and to OUT (20_memory R65, 10_state R36), through each
of the changes of `StepEffect`. -/

namespace Sys2Proof.Machine

theorem SameSession.exhausted {s t : State} (h : SameSession s t) : t.exhausted = s.exhausted :=
  (congrArg State.exhausted h.eq :)
theorem SameSession.out {s t : State} (h : SameSession s t) : t.out = s.out := (congrArg State.out h.eq :)

/-! ## EXHAUSTED -/

@[simp] theorem driftTrigger_exhausted (s : State) : (driftTrigger s).exhausted = s.exhausted := by
  rcases driftTrigger_cases s with ⟨-, h⟩ | ⟨-, h⟩
  · rw [h, driftCorrection_exhausted]
  · rw [h]

@[simp] theorem trainGate_exhausted (hnew : List Real64) (errors : Nat) (s : State) :
    (trainGate hnew errors s).exhausted = s.exhausted := by
  rcases trainGate_cases hnew errors s with ⟨-, h⟩ | ⟨-, h⟩
  · rw [h]
  · rw [h, raiseFault_exhausted]

/-- A SYM step never clears EXHAUSTED. -/
theorem symStep_exhausted {s : State} (hs : s.exhausted = true) : (symStep s).exhausted = true := by
  obtain ⟨k, ex, as, g, -, ⟨w, ps, gs, -, -, rfl, h⟩ | ⟨rfl, -, h⟩ | ⟨rfl, h⟩ | ⟨w, j, ps, gs, -, -, -, rfl, h⟩⟩ :=
    symStep_cases s
  case inl => rw [h, driftTrigger_exhausted]; exact hs
  case inr.inl => rw [h]; rfl
  all_goals rw [h]; exact hs

/-- TRAIN never clears EXHAUSTED. -/
theorem trainSession_exhausted {s : State} (hs : s.exhausted = true) : (trainSession s).exhausted = true := by
  obtain ⟨k, ex, as, g, ⟨h, rfl⟩ | ⟨h, rfl⟩ | ⟨cap, -, rfl, -, h⟩⟩ := trainSession_cases s
  · rw [h]; rfl
  · rw [h]; exact hs
  · rw [h, trainGate_exhausted]; exact hs

/-- Settles O26: of the changes that a step can make, only a reset clears EXHAUSTED. -/
theorem exhaustedStaysUntilReset : Obligations.ExhaustedStaysUntilReset := by
  intro s t hstep hreset hs
  cases stepEffect_of_step hstep with
  | resets hr _ => exact absurd hr hreset
  | keeps ht => exact ht.exhausted.trans hs
  | endsRun => exact hs
  | faults c _ _ ht => exact ht.exhausted.trans hs
  | adjusts delta rest _ _ => exact hs
  | trains rest _ _ => exact trainSession_exhausted (s := { s with cmds := rest }) hs
  | demodulates ws r _ _ => exact symStep_exhausted (s := { s with cmds := ws }) hs

/-! ## OUT -/

@[simp] theorem driftTrigger_out (s : State) : (driftTrigger s).out = s.out := by
  rcases driftTrigger_cases s with ⟨-, h⟩ | ⟨-, h⟩
  · rw [h, driftCorrection_out]
  · rw [h]

@[simp] theorem trainGate_out (hnew : List Real64) (errors : Nat) (s : State) :
    (trainGate hnew errors s).out = s.out := by
  rcases trainGate_cases hnew errors s with ⟨-, h⟩ | ⟨-, h⟩
  · rw [h]
  · rw [h, raiseFault_out]

/-- TRAIN pushes nothing. -/
@[simp] theorem trainSession_out (s : State) : (trainSession s).out = s.out := by
  obtain ⟨k, ex, as, g, ⟨h, -⟩ | ⟨h, -⟩ | ⟨cap, -, -, -, h⟩⟩ := trainSession_cases s
  · rw [h, raiseFault_out, pullEffect_out]
  · rw [h, raiseFault_out, pullEffect_out]
  · rw [h, trainGate_out, pullEffect_out]

/-- A SYM step appends one block of tuples at most: all of it, the part before a failed push, or none. -/
theorem symStep_out (s : State) : ∃ ts, (symStep s).out = s.out ++ ts ∧ ts.length ≤ s.cfg.ntone := by
  obtain ⟨k, ex, as, g, -, ⟨w, ps, gs, -, -, -, h⟩ | ⟨-, -, h⟩ | ⟨-, h⟩ | ⟨w, j, ps, gs, -, -, -, -, h⟩⟩ :=
    symStep_cases s
  · exact ⟨(blockSymbols s.cfg w).map (symbolTuple s.cfg), by rw [h, driftTrigger_out]; rfl, by simp⟩
  · exact ⟨[], by rw [h]; exact (List.append_nil _).symm, Nat.zero_le _⟩
  · exact ⟨[], by rw [h]; exact (List.append_nil _).symm, Nat.zero_le _⟩
  · refine ⟨((blockSymbols s.cfg w).map (symbolTuple s.cfg)).take j, by rw [h]; rfl, ?_⟩
    rw [List.length_take, List.length_map, blockSymbols_length]
    exact Nat.min_le_right _ _

/-- Settles O55: of the changes that a step can make, but for a reset, only a SYM step's reaches OUT. -/
theorem outIsAppendOnly : Obligations.OutIsAppendOnly := by
  intro s t hstep hreset
  have hnone : t.out = s.out →
      ∃ ts, t.out = s.out ++ ts ∧ ts.length ≤ s.cfg.ntone ∧ (ts ≠ [] → s.mode = .demodulating) :=
    fun h => ⟨[], by rw [h, List.append_nil], Nat.zero_le _, fun hne => absurd rfl hne⟩
  cases stepEffect_of_step hstep with
  | resets hr _ => exact absurd hr hreset
  | keeps ht => exact hnone ht.out
  | endsRun => exact hnone rfl
  | faults c _ _ ht => exact hnone ht.out
  | adjusts delta rest _ _ => exact hnone rfl
  | trains rest _ _ => exact hnone (trainSession_out _)
  | demodulates ws r hm _ =>
    obtain ⟨ts, hout, hlen⟩ := symStep_out { s with cmds := ws }
    exact ⟨ts, hout, hlen, fun _ => hm⟩

end Sys2Proof.Machine
end

section
/-! The response stream through a step (20_memory R66, 40_host_commands R121). -/

namespace Sys2Proof.Machine

@[simp] theorem illegalCommand_resp (s : State) : (illegalCommand s).resp = s.resp := by
  rcases illegalCommand_cases s with ⟨-, h⟩ | ⟨-, h⟩
  · rw [h]
  · rw [h, raiseFault_resp]

@[simp] theorem trainGate_resp (hnew : List Real64) (errors : Nat) (s : State) :
    (trainGate hnew errors s).resp = s.resp := by
  rcases trainGate_cases hnew errors s with ⟨-, h⟩ | ⟨-, h⟩
  · rw [h]
  · rw [h, raiseFault_resp]

@[simp] theorem trainSession_resp (s : State) : (trainSession s).resp = s.resp := by
  obtain ⟨k, ex, as, g, ⟨h, -⟩ | ⟨h, -⟩ | ⟨cap, -, -, -, h⟩⟩ := trainSession_cases s
  · rw [h, raiseFault_resp, pullEffect_resp]
  · rw [h, raiseFault_resp, pullEffect_resp]
  · rw [h, trainGate_resp, pullEffect_resp]

@[simp] theorem symStep_resp (s : State) : (symStep s).resp = s.resp := by
  obtain ⟨-, hresp, -⟩ := symStep_cmds_resp s
  exact hresp

@[simp] theorem runTurn_resp (n i : BitVec 24) (s : State) : (runTurn n i s).resp = s.resp := by
  rcases runTurn_cases n i s with ⟨-, h⟩ | ⟨-, r, h, -⟩
  · rw [h]
  · rw [h, ← symStep_resp s]

/-- Of the words that select no row, only those of opcode 0x01 respond, with 0 (30_encoding R98). -/
theorem executeIllegal_resp_cases (why : Reject) (s : State) :
    (executeIllegal why s).resp = s.resp ∨
    (why = .mustBeZero 0x01 ∧ (executeIllegal why s).resp = s.resp ++ [0]) := by
  cases why with
  | reservedOpcode op => exact .inl (illegalCommand_resp s)
  | mustBeZero op =>
    simp only [executeIllegal]
    split
    case isTrue hop => exact .inr ⟨congrArg _ hop, by rw [illegalCommand_resp, respond_resp]⟩
    case isFalse => exact .inl (illegalCommand_resp s)

/-- Of the commands, only RDREG responds, one word. -/
theorem exec_resp_cases {i : Instr} {s t : State} (h : exec i s = .next t) :
    t.resp = s.resp ∨ ∃ r v, i = .rdreg r ∧ t.resp = s.resp ++ [v] := by
  rcases exec_cases h with ⟨-, rfl⟩ | ⟨r, rfl, ⟨v, -, rfl⟩ | ⟨-, rfl⟩⟩ | ⟨d, -, -, rfl⟩ | ⟨-, -, rfl⟩ | ⟨-, -, rfl⟩ |
    ⟨n, -, -, rfl⟩ | ⟨c, cause, -, -, -, rfl⟩ | ⟨-, rfl⟩ | ⟨-, -, rfl⟩
  case inl => exact .inl rfl
  · exact .inr ⟨r, v, rfl, respond_resp s v⟩
  · exact .inr ⟨r, 0, rfl, by rw [illegalCommand_resp, respond_resp]⟩
  all_goals exact .inl (by simp only [illegalCommand_resp, adjustFreq_resp, trainSession_resp, symStep_resp,
    runTurn_resp, raiseFault_resp, sessionReset_resp])

/-- Settles O56: each thing a step can do, an RDREG and a word of its opcode aside, leaves the responses alone. -/
theorem onlyRdregResponds : Obligations.OnlyRdregResponds := by
  intro s t hstep
  obtain ⟨-, ⟨-, rfl⟩ | ⟨-, r, -, rfl⟩ | ⟨-, -, i, rest, hd, he⟩ | ⟨-, -, why, rest, hd, rfl⟩ | ⟨-, -, -, rfl⟩⟩ :=
    step_cases hstep
  · exact .inl (resetInput_resp s)
  · exact .inl (runTurn_resp r.n r.i s)
  · rcases exec_resp_cases he with h | ⟨r, v, rfl, h⟩
    · exact .inl h
    · exact .inr ⟨v, h, .inl ⟨r, rest, hd⟩⟩
  · rcases executeIllegal_resp_cases why { s with cmds := rest } with h | ⟨rfl, h⟩
    · exact .inl h
    · exact .inr ⟨0, h, .inr ⟨rfl, rest, hd⟩⟩
  · exact .inl rfl

end Sys2Proof.Machine
end

section
/-! The command words (30_encoding R90 to R97): a word is its two fields, and what the decoder reads from one. -/

namespace Sys2Proof

/-! ## Fields of a word (30_encoding R91) -/

@[simp] theorem opField_append (op : BitVec 8) (imm : BitVec 24) : opField (op ++ imm) = op :=
  BitVec.extractLsb'_append_eq_left

@[simp] theorem immField_append (op : BitVec 8) (imm : BitVec 24) : immField (op ++ imm) = imm :=
  BitVec.extractLsb'_append_eq_right

/-- The two fields cover the word. -/
theorem append_opField_immField (w : Word) : opField w ++ immField w = w := by
  have h : opField w ++ immField w = w.extractLsb' 0 32 := BitVec.extractLsb'_append_extractLsb'_eq_extractLsb' rfl
  rw [h, BitVec.extractLsb'_eq_self]

theorem eq_append_of_fields {w : Word} {op : BitVec 8} {imm : BitVec 24} (hop : opField w = op)
    (himm : immField w = imm) : w = op ++ imm := by
  rw [← append_opField_immField w, hop, himm]

/-- An operand narrower than `imm` below a must-be-zero part. -/
theorem append_of_upper_eq_zero {m n : Nat} {x : BitVec (m + n)} (h : x.extractLsb' n m = 0#m) :
    0#m ++ x.extractLsb' 0 n = x := by
  have happend : x.extractLsb' n m ++ x.extractLsb' 0 n = x.extractLsb' 0 (m + n) :=
    BitVec.extractLsb'_append_extractLsb'_eq_extractLsb' (by omega)
  rw [← h, happend, BitVec.extractLsb'_eq_self]

/-- The part of `x` above its `n` low bits, as a number. -/
theorem upper_eq_zero_iff {m n : Nat} {x : BitVec (m + n)} : x.extractLsb' n m = 0 ↔ x.toNat / 2 ^ n = 0 := by
  have hlt : x.toNat / 2 ^ n < 2 ^ m := by
    apply Nat.div_lt_of_lt_mul
    rw [← Nat.pow_add, Nat.add_comm n m]
    exact x.isLt
  rw [← BitVec.toNat_inj, BitVec.extractLsb'_toNat, Nat.shiftRight_eq_div_pow, Nat.mod_eq_of_lt hlt]
  rfl

/-- The first word of RDREG is its opcode, a zero byte and the register number (30_encoding R94). -/
theorem encode_rdreg (r : BitVec 16) : encode (.rdreg r) = [0x01#8 ++ (0#8 ++ r)] := by
  rw [encode, BitVec.append_assoc']; rfl

/-- The first word of ABORT is its opcode, two zero bytes and the code (30_encoding R94). -/
theorem encode_abort (c : BitVec 8) : encode (.abort c) = [0x07#8 ++ (0#16 ++ c)] := by
  rw [encode, BitVec.append_assoc']; rfl

/-- The two extension words of FADJ hold its operand (30_encoding R92). -/
theorem operandHalves_append (delta : Real64) : delta.extractLsb' 32 32 ++ delta.extractLsb' 0 32 = delta := by
  have h : delta.extractLsb' 32 32 ++ delta.extractLsb' 0 32 = delta.extractLsb' 0 64 :=
    BitVec.extractLsb'_append_extractLsb'_eq_extractLsb' rfl
  rw [h, BitVec.extractLsb'_eq_self]

theorem encode_fadj (ext0 ext1 : Word) : encode (.fadj (ext1 ++ ext0)) = [0x02000000, ext0, ext1] := by
  have hlow : (ext1 ++ ext0).extractLsb' 0 32 = ext0 := BitVec.extractLsb'_append_eq_right
  have hhigh : (ext1 ++ ext0).extractLsb' 32 32 = ext1 := BitVec.extractLsb'_append_eq_left
  rw [encode, hlow, hhigh]

/-! ## What the decoder reads (30_encoding R94, R97) -/

theorem formatZ_eq_instr_iff {w : Word} {i j : Instr} {rest ws : List Word} :
    formatZ w i rest = .instr j ws ↔ immField w = 0 ∧ i = j ∧ rest = ws := by
  unfold formatZ
  split
  case isTrue himm => simp only [himm, Decoded.instr.injEq, true_and]
  case isFalse himm => exact ⟨nofun, fun h => absurd h.1 himm⟩

theorem formatZ_eq_illegal_iff {w : Word} {i : Instr} {rest ws : List Word} {why : Reject} :
    formatZ w i rest = .illegal why ws ↔ immField w ≠ 0 ∧ .mustBeZero (opField w) = why ∧ rest = ws := by
  unfold formatZ
  split
  case isTrue himm => exact ⟨nofun, fun h => absurd himm h.1⟩
  case isFalse himm => simp only [ne_eq, himm, not_false_eq_true, Decoded.illegal.injEq, true_and]

/-- R97 (a): the opcode is reserved. -/
abbrev ReservedOpcode (op : BitVec 8) : Prop := op = 0x03 ∨ 0x09 ≤ op.toNat

theorem reservedOpcode_of_ne {op : BitVec 8} (h0 : op ≠ 0x00) (h1 : op ≠ 0x01) (h2 : op ≠ 0x02) (h4 : op ≠ 0x04)
    (h5 : op ≠ 0x05) (h6 : op ≠ 0x06) (h7 : op ≠ 0x07) (h8 : op ≠ 0x08) : ReservedOpcode op := by
  unfold ReservedOpcode
  bv_omega

theorem not_reservedOpcode_one : ¬ ReservedOpcode 0x01 := by decide

/-- R97 (b), for a word without extension words: a must-be-zero part of `imm` is not zero. -/
def MustBeZeroBroken (w : Word) : Prop :=
  ((opField w = 0x00 ∨ opField w = 0x04 ∨ opField w = 0x05 ∨ opField w = 0x08) ∧ immField w ≠ 0) ∨
  (opField w = 0x01 ∧ (immField w).toNat / 2 ^ 16 ≠ 0) ∨
  (opField w = 0x07 ∧ (immField w).toNat / 2 ^ 8 ≠ 0)

/-- What the decoder can make of a word `w` without extension words, in front of `rest`: the command of which it is
the encoding, or one of the two ways to select no row. -/
inductive WordReading (w : Word) (rest : List Word) : Decoded → Prop where
  | command (i : Instr) (henc : encode i = [w]) (hop : ¬ ReservedOpcode (opField w)) (hzero : ¬ MustBeZeroBroken w) :
      WordReading w rest (.instr i rest)
  | reserved (hop : ReservedOpcode (opField w)) :
      WordReading w rest (.illegal (.reservedOpcode (opField w)) rest)
  | broken (hzero : MustBeZeroBroken w) :
      WordReading w rest (.illegal (.mustBeZero (opField w)) rest)

/-- A row of the opcode map: its command where the must-be-zero part is zero, which is the condition `legal`. -/
theorem wordReading_of_row {w : Word} {op : BitVec 8} {i : Instr} {legal : Prop} [Decidable legal]
    (hop : opField w = op) (hfree : ¬ ReservedOpcode op) (hbroken : MustBeZeroBroken w ↔ ¬ legal)
    (henc : legal → encode i = [op ++ immField w]) (rest : List Word) :
    WordReading w rest (if legal then .instr i rest else .illegal (.mustBeZero op) rest) := by
  subst hop
  by_cases h : legal
  · rw [if_pos h]
    exact .command i (by rw [henc h, append_opField_immField]) hfree fun hz => hbroken.1 hz h
  · rw [if_neg h]
    exact .broken (hbroken.2 h)

/-- A row without an operand. -/
theorem wordReading_formatZ {w : Word} {op : BitVec 8} {i : Instr} (hop : opField w = op)
    (hrow : op = 0x00 ∨ op = 0x04 ∨ op = 0x05 ∨ op = 0x08) (henc : encode i = [op ++ (0 : BitVec 24)])
    (rest : List Word) : WordReading w rest (formatZ w i rest) := by
  refine wordReading_of_row rfl ?_ ?_ (fun himm => by rw [henc, hop, himm]) rest
  · rw [hop]; rcases hrow with rfl | rfl | rfl | rfl <;> decide
  · rcases hrow with rfl | rfl | rfl | rfl <;> simp [MustBeZeroBroken, hop]

theorem decode_of_word {w : Word} (hop : opField w ≠ 0x02) (rest : List Word) :
    decode (w :: rest) = decodeOne w rest :=
  if_neg hop

theorem wordReading_decode {w : Word} (hop : opField w ≠ 0x02) (rest : List Word) :
    WordReading w rest (decode (w :: rest)) := by
  rw [decode_of_word hop]
  unfold decodeOne
  split
  case h_1 h => exact wordReading_formatZ h (by decide) rfl rest
  case h_2 h =>
    refine wordReading_of_row h (by decide) ?_ (fun hz => ?_) rest
    · rw [upper_eq_zero_iff (m := 8) (n := 16)]
      simp [MustBeZeroBroken, h]
    · rw [encode_rdreg, append_of_upper_eq_zero (m := 8) (n := 16) hz]
  case h_3 h => exact wordReading_formatZ h (by decide) rfl rest
  case h_4 h => exact wordReading_formatZ h (by decide) rfl rest
  case h_5 h =>
    exact wordReading_of_row (legal := True) h (by decide) (by simp [MustBeZeroBroken, h]) (fun _ => rfl) rest
  case h_6 h =>
    refine wordReading_of_row h (by decide) ?_ (fun hz => ?_) rest
    · rw [upper_eq_zero_iff (m := 16) (n := 8)]
      simp [MustBeZeroBroken, h]
    · rw [encode_abort, append_of_upper_eq_zero (m := 16) (n := 8) hz]
  case h_7 h => exact wordReading_formatZ h (by decide) rfl rest
  case h_8 h0 h1 h4 h5 h6 h7 h8 => exact .reserved (reservedOpcode_of_ne h0 h1 hop h4 h5 h6 h7 h8)

/-- A three-word command: FADJ of its extension words, the low word first, or an illegal one (30_encoding R92). -/
theorem decode_of_extended {w : Word} (hop : opField w = 0x02) (ext0 ext1 : Word) (rest : List Word) :
    decode (w :: ext0 :: ext1 :: rest) = formatZ w (.fadj (ext1 ++ ext0)) rest :=
  if_pos hop

theorem decode_of_extended_short {w : Word} (hop : opField w = 0x02) {tail : List Word} (h : tail.length < 2) :
    decode (w :: tail) = .needMore := by
  match tail, h with
  | [], _ => exact if_pos hop
  | [_], _ => exact if_pos hop

/-- What the decoder makes of a word with extension words: nothing yet, or a command in format X of all three. -/
theorem decode_extended_cases {w : Word} (hop : opField w = 0x02) (tail : List Word) :
    decode (w :: tail) = .needMore ∨
    ∃ ext0 ext1 rest, tail = ext0 :: ext1 :: rest ∧ decode (w :: tail) = formatZ w (.fadj (ext1 ++ ext0)) rest := by
  match tail with
  | [] => exact .inl (decode_of_extended_short hop (by simp))
  | [_] => exact .inl (decode_of_extended_short hop (by simp))
  | ext0 :: ext1 :: rest => exact .inr ⟨ext0, ext1, rest, rfl, decode_of_extended hop ext0 ext1 rest⟩

/-- The one-word commands that select no row, by R97 (a) and (b). -/
theorem decode_illegal_iff {w : Word} (hop : opField w ≠ 0x02) (rest : List Word) :
    (∃ why, decode (w :: rest) = .illegal why rest) ↔ ReservedOpcode (opField w) ∨ MustBeZeroBroken w := by
  have hread := wordReading_decode hop rest
  generalize decode (w :: rest) = d at hread ⊢
  cases hread with
  | command i _ hfree hzero => simp [hfree, hzero]
  | reserved hres => simp [hres]
  | broken hzero => simp [hzero]

/-- A reserved opcode is not 0x01, so the reason names that opcode for its own words only. -/
theorem reason_iff_opField {w : Word} {tail rest : List Word} {why : Reject}
    (h : decode (w :: tail) = .illegal why rest) : why = .mustBeZero 0x01 ↔ opField w = 0x01 := by
  by_cases hop : opField w = 0x02
  · rcases decode_extended_cases hop tail with hd | ⟨ext0, ext1, rest', -, hd⟩
    · rw [hd] at h; cases h
    · rw [hd, formatZ_eq_illegal_iff] at h
      obtain ⟨-, rfl, -⟩ := h
      simp
  · have hread := wordReading_decode hop tail
    rw [h] at hread
    cases hread with
    | reserved hres =>
      exact ⟨nofun, fun h1 => absurd (h1 ▸ hres) not_reservedOpcode_one⟩
    | broken _ => simp

/-! ## The statements -/

/-- Settles O1: each command's word gives its own fields back, and FADJ its two extension words. -/
theorem decodeOfEncode : Obligations.DecodeOfEncode := by
  intro i rest
  cases i with
  | nop => rfl
  | rdreg r =>
    have hzero : (0#8 ++ r).extractLsb' 16 8 = 0#8 := BitVec.extractLsb'_append_eq_left
    have hr : (0#8 ++ r).extractLsb' 0 16 = r := BitVec.extractLsb'_append_eq_right
    simp [encode_rdreg, decode, decodeOne, hzero, hr]
  | fadj delta => exact congrArg (fun d => Decoded.instr (.fadj d) rest) (operandHalves_append delta)
  | train => rfl
  | sym => rfl
  | run n => simp [encode, decode, decodeOne]
  | abort c =>
    have hzero : (0#16 ++ c).extractLsb' 8 16 = 0#16 := BitVec.extractLsb'_append_eq_left
    have hc : (0#16 ++ c).extractLsb' 0 8 = c := BitVec.extractLsb'_append_eq_right
    simp [encode_abort, decode, decodeOne, hzero, hc]
  | reset => rfl

/-- Settles O2: a word without extension words reads as a command of which it is the encoding, and a word with them
as the FADJ that they encode. -/
theorem encodeOfDecode : Obligations.EncodeOfDecode := by
  intro ws i rest h
  cases ws with
  | nil => cases h
  | cons w tail =>
    by_cases hop : opField w = 0x02
    · rcases decode_extended_cases hop tail with hd | ⟨ext0, ext1, rest', rfl, hd⟩
      · rw [hd] at h; cases h
      · rw [hd, formatZ_eq_instr_iff] at h
        obtain ⟨himm, rfl, rfl⟩ := h
        rw [eq_append_of_fields hop himm, encode_fadj]
        rfl
    · have hread := wordReading_decode hop tail
      rw [h] at hread
      cases hread with
      | command i henc _ _ => rw [henc, List.singleton_append]

/-- Settles O3: each reading of a word without extension words leaves exactly the words after it. -/
theorem lengthIsDecidedByOpcode : Obligations.LengthIsDecidedByOpcode := by
  refine ⟨fun w ext0 ext1 rest hop => ?_, fun w rest hop => ?_, fun w ext0 hop => ?_, rfl⟩
  · rw [decode_of_extended hop, formatZ, hop]
    exact ⟨fun himm => if_pos himm, fun himm => if_neg himm⟩
  · have hread := wordReading_decode hop rest
    generalize decode (w :: rest) = d at hread ⊢
    cases hread with
    | command i => exact .inl ⟨i, rfl⟩
    | reserved => exact .inr ⟨_, rfl⟩
    | broken => exact .inr ⟨_, rfl⟩
  · exact ⟨decode_of_extended_short hop (by simp), decode_of_extended_short hop (by simp)⟩

/-- Settles O4: the words that select no row, and the opcode that the reason names. -/
theorem decoderRejectsExactly : Obligations.DecoderRejectsExactly := by
  refine ⟨fun w rest hop => ?_, fun w rest hop hzero => ?_, fun w tail why rest => reason_iff_opField⟩
  · rw [decode_illegal_iff hop, ReservedOpcode, MustBeZeroBroken, or_assoc]
  · obtain ⟨why, hd⟩ := (decode_illegal_iff (by rw [hop]; decide) rest).2 (.inr (.inr (.inl ⟨hop, hzero⟩)))
    rw [hd, (reason_iff_opField hd).2 hop]

end Sys2Proof
end

section
/-! The worked encodings and the pseudo-instructions (30_encoding R103, R104), each written out. -/

namespace Sys2Proof.Machine

/-- The decimal literal of R104's FADJ, rounded by exact integer arithmetic (30_encoding R102). -/
theorem realOfDecimal_worked : realOfDecimal false 25 (-6) = 0x3EFA36E2EB1C432D := by decide +kernel

/-- Settles O5: the literal is rounded as R104 says, and each of its words is decoded as it says. -/
theorem workedEncodings : Obligations.WorkedEncodings := by
  refine ⟨?_, ?_, ?_, ?_, ?_, realOfDecimal_worked, ?_⟩ <;> decide

/-- Settles O6: each pseudo-instruction and the line it stands for assemble to the same command. -/
theorem pseudoInstructionsExpand : Obligations.PseudoInstructionsExpand := by
  unfold Obligations.PseudoInstructionsExpand
  decide

end Sys2Proof.Machine
end

section
/-! Illegal commands and commands in a mode that does not take them (30_encoding R93, R95, R97 to R100). -/

namespace Sys2Proof.Machine

/-! ## The effect of an illegal command (30_encoding R98) -/

theorem illegalCommand_of_terminal {s : State} (h : s.mode.terminal = true) : illegalCommand s = s := if_pos h

theorem illegalCommand_of_not_terminal {s : State} (h : s.mode.terminal = false) :
    illegalCommand s = { s with mode := .failed, cause := .illegalCommand, run := none } := by
  rw [illegalCommand, h]
  rfl

/-- A word that selects no row is an illegal command, after the response where there is one. -/
theorem executeIllegal_eq (why : Reject) (s : State) :
    executeIllegal why s =
      illegalCommand { s with resp := if why = .mustBeZero 0x01 then s.resp ++ [0] else s.resp } := by
  cases why with
  | reservedOpcode op => rfl
  | mustBeZero op =>
    by_cases hop : op = 0x01
    · subst hop; rfl
    · have hwhy : Reject.mustBeZero op ≠ .mustBeZero 0x01 := fun h => hop (Reject.mustBeZero.inj h)
      rw [executeIllegal, if_neg hop, if_neg hwhy]

/-- The step that takes a word that selects no row: the illegal command, after the response where there is one. -/
theorem step_of_illegal {s : State} {why : Reject} {rest : List Word} (hconfig : configOk s.cfg = true)
    (hreset : s.resetIn = false) (hrun : s.run = none) (hd : decode s.cmds = .illegal why rest) :
    step s = .next (illegalCommand
      { s with cmds := rest, resp := if why = .mustBeZero 0x01 then s.resp ++ [0] else s.resp }) := by
  have hstep : step s = .next (executeIllegal why { s with cmds := rest }) := by
    simp only [step, fetch, hconfig, hreset, hrun, hd, Bool.true_eq_false, Bool.false_eq_true, if_false]
  exact hstep.trans (congrArg _ (executeIllegal_eq why { s with cmds := rest }))

/-! ## Illegal operands (30_encoding R93, R95) -/

theorem exec_fadj_of_not_finite {delta : Real64} (h : isFinite delta = false) (s : State) :
    exec (.fadj delta) s = .next (illegalCommand s) := by
  rw [exec, execFadj, h]
  rfl

theorem hostCause_of_other {c : BitVec 8} (h1 : c ≠ 1) (h2 : c ≠ 2) (h7 : c ≠ 7) : hostCause c = none := by
  rw [hostCause, if_neg h1, if_neg h2, if_neg h7]

theorem exec_abort_of_hostCause_eq_none {c : BitVec 8} (h : hostCause c = none) (s : State) :
    exec (.abort c) s = .next (illegalCommand s) := by
  rw [exec, execAbort, h]

/-! ## Modes that do not take a command (30_encoding R99, R100) -/

/-- Ignored in a terminal mode, Fault(6) in another: what an illegal command does in either. -/
theorem inMode_of_legality_ne_ok {i : Instr} {s : State} (f : State → State) (h : legality i s.mode ≠ .ok) :
    inMode i f s = illegalCommand s := by
  rcases inMode_cases i f s with ⟨hl, -⟩ | ⟨hl, he⟩ | ⟨hl, he⟩
  · exact absurd hl h
  · rw [he, illegalCommand_of_not_terminal ((legality_terminal i s.mode).2 hl)]; rfl
  · rw [he, illegalCommand_of_terminal ((legality_terminal i s.mode).1 hl)]

/-- A command that the mode's column of R100 does not mark `ok` does what an illegal command does. -/
theorem exec_of_legality_ne_ok {i : Instr} {s : State} (h : legality i s.mode ≠ .ok) :
    exec i s = .next (illegalCommand s) := by
  cases i with
  | nop => exact absurd rfl h
  | rdreg r => exact absurd rfl h
  | fadj delta =>
    cases hfinite : isFinite delta with
    | false => exact exec_fadj_of_not_finite hfinite s
    | true => rw [exec, execFadj, if_pos hfinite, inMode_of_legality_ne_ok _ h]
  | train => exact congrArg _ (inMode_of_legality_ne_ok _ h)
  | sym => exact congrArg _ (inMode_of_legality_ne_ok _ h)
  | run n => exact congrArg _ (inMode_of_legality_ne_ok _ h)
  | abort c =>
    cases hcause : hostCause c with
    | none => exact exec_abort_of_hostCause_eq_none hcause s
    | some cause => simp only [exec, execAbort, hcause, inMode_of_legality_ne_ok _ h]
  | reset => exact absurd rfl h

/-- R99: a terminal mode takes NOP, RDREG and RESET only. -/
theorem legality_ne_ok_of_terminal {i : Instr} {m : Mode} (hm : m.terminal = true) (hnop : i ≠ .nop)
    (hrdreg : ∀ r, i ≠ .rdreg r) (hreset : i ≠ .reset) : legality i m ≠ .ok := by
  cases m with
  | pre => cases hm
  | training => cases hm
  | demodulating => cases hm
  | done => cases i <;> simp_all [legality]
  | failed => cases i <;> simp_all [legality]

/-- R100: FADJ is taken in PRE only, TRAIN in TRAINING only, SYM and RUN in DEMODULATING only. -/
theorem mode_of_legality_ok {m : Mode} :
    (∀ delta, legality (.fadj delta) m = .ok → m = .pre) ∧ (legality .train m = .ok → m = .training) ∧
    (legality .sym m = .ok → m = .demodulating) ∧ (∀ n, legality (.run n) m = .ok → m = .demodulating) := by
  cases m <;> simp [legality]

/-! ## The statements -/

/-- Settles O10: the word is an illegal command, after its response. -/
theorem illegalWordFaultsOrIsIgnored : Obligations.IllegalWordFaultsOrIsIgnored := by
  intro s why rest hconfig hreset hrun hd
  have hstep := step_of_illegal hconfig hreset hrun hd
  refine ⟨fun hm => hstep.trans (congrArg _ (illegalCommand_of_terminal hm)), fun hm => ?_⟩
  have hfault := hstep.trans (congrArg _ (illegalCommand_of_not_terminal hm))
  rwa [← hrun] at hfault

/-- Settles O18: in every mode the command does what an illegal command does. -/
theorem fadjOfNonFiniteIsIllegal : Obligations.FadjOfNonFiniteIsIllegal := by
  intro delta s hfinite
  have hexec := exec_fadj_of_not_finite hfinite s
  exact ⟨fun hm => hexec.trans (congrArg _ (illegalCommand_of_not_terminal hm)),
    fun hm => hexec.trans (congrArg _ (illegalCommand_of_terminal hm))⟩

/-- Settles O20: the codes 1, 2 and 7 are the only ones that name a cause. -/
theorem abortOfOtherCodeIsIllegal : Obligations.AbortOfOtherCodeIsIllegal := by
  intro c s h1 h2 h7 hm
  have hexec := exec_abort_of_hostCause_eq_none (hostCause_of_other h1 h2 h7) s
  exact hexec.trans (congrArg _ (illegalCommand_of_not_terminal hm))

/-- Settles O22: what an illegal command does in a terminal mode is nothing. -/
theorem terminalModesIgnore : Obligations.TerminalModesIgnore := by
  refine ⟨fun i s hm hnop hrdreg hreset => ?_, fun s why rest hm hconfig hreset hrun hd hwhy => ?_⟩
  · have hexec := exec_of_legality_ne_ok (legality_ne_ok_of_terminal hm hnop hrdreg hreset)
    exact hexec.trans (congrArg _ (illegalCommand_of_terminal hm))
  · have hstep := (illegalWordFaultsOrIsIgnored s why rest hconfig hreset hrun hd).1 hm
    rwa [if_neg hwhy] at hstep

/-- Settles O23: the mode's column of R100 marks each of these commands `ill`. -/
theorem outOfOrderCommandFaults : Obligations.OutOfOrderCommandFaults := by
  intro i s hm horder
  have hl : legality i s.mode ≠ .ok := by
    obtain ⟨hfadj, htrain, hsym, hrun⟩ := mode_of_legality_ok (m := s.mode)
    rcases horder with ⟨delta, rfl, hmode⟩ | ⟨rfl, hmode⟩ | ⟨rfl, hmode⟩ | ⟨n, rfl, hmode⟩
    · exact fun hok => hmode (hfadj delta hok)
    · exact fun hok => hmode (htrain hok)
    · exact fun hok => hmode (hsym hok)
    · exact fun hok => hmode (hrun n hok)
  exact (exec_of_legality_ne_ok hl).trans (congrArg _ (illegalCommand_of_not_terminal hm))

/-! ## A step in a terminal mode -/

/-- `t` is `s`, or `s` with one response more. -/
def RespondsAtMost (s t : State) : Prop := t = s ∨ ∃ v, t = respond v s

theorem respondsAtMost_rdreg {r : BitVec 16} {s t : State} (hm : s.mode.terminal = true)
    (h : exec (.rdreg r) s = .next t) : RespondsAtMost s t := by
  cases hr : readReg r s with
  | some v =>
    simp only [exec, execRdreg, hr] at h
    exact .inr ⟨v, (Host.Outcome.next.inj h).symm⟩
  | none =>
    simp only [exec, execRdreg, hr, illegalCommand_of_terminal (s := respond 0 s) hm] at h
    exact .inr ⟨0, (Host.Outcome.next.inj h).symm⟩

/-- A command other than RESET: NOP and the ignored ones change nothing, RDREG responds. -/
theorem respondsAtMost_exec {i : Instr} {s t : State} (hm : s.mode.terminal = true) (hreset : i ≠ .reset)
    (h : exec i s = .next t) : RespondsAtMost s t := by
  by_cases hrdreg : ∃ r, i = .rdreg r
  · obtain ⟨r, rfl⟩ := hrdreg
    exact respondsAtMost_rdreg hm h
  · by_cases hnop : i = .nop
    · subst hnop
      exact .inl (Host.Outcome.next.inj h).symm
    · rw [terminalModesIgnore.1 i s hm hnop (not_exists.1 hrdreg) hreset] at h
      exact .inl (Host.Outcome.next.inj h).symm

theorem respondsAtMost_executeIllegal (why : Reject) {s : State} (hm : s.mode.terminal = true) :
    RespondsAtMost s (executeIllegal why s) := by
  rw [executeIllegal_eq]
  split
  · exact .inr ⟨0, illegalCommand_of_terminal hm⟩
  · exact .inl (illegalCommand_of_terminal hm)

/-- With its words taken and a response at most, a command leaves the rest of the state alone. -/
theorem frame_of_respondsAtMost {s t : State} (ws : List Word) (h : RespondsAtMost { s with cmds := ws } t) :
    SameSession s t ∧ t.samplerIn = s.samplerIn ∧ t.samplerState = s.samplerState ∧ t.sinkIn = s.sinkIn ∧
    t.sinkState = s.sinkState ∧ t.resetIn = s.resetIn ∧ t.cmds = ws ∧
    (t.resp = s.resp ∨ ∃ v, t.resp = s.resp ++ [v]) := by
  rcases h with rfl | ⟨v, rfl⟩
  · exact ⟨rfl, rfl, rfl, rfl, rfl, rfl, rfl, .inl rfl⟩
  · exact ⟨rfl, rfl, rfl, rfl, rfl, rfl, rfl, .inr ⟨v, rfl⟩⟩

/-- Settles O53: the step takes the words of one command, whose effect is a response at most. -/
theorem terminalModesAreAbsorbing : Obligations.TerminalModesAreAbsorbing := by
  intro s t hstep hreset hm hrun
  obtain ⟨-, ⟨hinput, -⟩ | ⟨-, r, hr, -⟩ | ⟨-, -, i, rest, hd, he⟩ | ⟨-, -, why, rest, hd, rfl⟩ | ⟨-, -, hd, rfl⟩⟩ :=
    step_cases hstep
  · exact absurd (.inl hinput) hreset
  · cases hrun.symm.trans hr
  · have hi : i ≠ .reset := by
      rintro rfl
      exact hreset (.inr ⟨hrun, rest, hd⟩)
    rw [hd]
    exact frame_of_respondsAtMost rest (respondsAtMost_exec hm hi he)
  · rw [hd]
    exact frame_of_respondsAtMost rest (respondsAtMost_executeIllegal why hm)
  · rw [hd]
    exact frame_of_respondsAtMost t.cmds (.inl rfl)

end Sys2Proof.Machine
end

section
/-! The host commands NOP, RDREG, FADJ, ABORT and RESET where they have their own effect (40_host_commands R120 to
R124). -/

namespace Sys2Proof.Machine

/-! ## RDREG (R121) -/

theorem exec_rdreg_of_implemented {r : BitVec 16} {s : State} {v : Word64} (h : readReg r s = some v) :
    exec (.rdreg r) s = .next (respond v s) := by
  rw [exec, execRdreg, h]

theorem exec_rdreg_of_unimplemented {r : BitVec 16} {s : State} (h : readReg r s = none) :
    exec (.rdreg r) s = .next (illegalCommand (respond 0 s)) := by
  rw [exec, execRdreg, h]

/-! ## FADJ (R122) -/

theorem exec_fadj_of_finite {delta : Real64} {s : State} (hfinite : isFinite delta = true) (hm : s.mode = .pre) :
    exec (.fadj delta) s = .next (adjustFreq delta s) := by
  have hl : legality (.fadj delta) s.mode = .ok := by rw [hm]; rfl
  rw [exec, execFadj, if_pos hfinite, inMode_ok _ hl]

/-! ## ABORT (R123) -/

/-- R100: ABORT is taken in every mode that is not terminal. -/
theorem legality_abort_of_not_terminal (c : BitVec 8) {m : Mode} (h : m.terminal = false) :
    legality (.abort c) m = .ok := by
  cases m with
  | pre => rfl
  | training => rfl
  | demodulating => rfl
  | done => cases h
  | failed => cases h

theorem exec_abort_of_hostCause {c : BitVec 8} {cause : Cause} {s : State} (h : hostCause c = some cause)
    (hm : s.mode.terminal = false) : exec (.abort c) s = .next (raiseFault cause s) := by
  simp only [exec, execAbort, h, inMode_ok _ (legality_abort_of_not_terminal c hm)]

/-! ## The statements -/

/-- Settles O14: no mode is looked at. -/
theorem nopChangesNothing : Obligations.NopChangesNothing := fun _ => rfl

/-- Settles O16: the response is made first, and it leaves the mode alone, which then decides what the illegal
command does. -/
theorem rdregResponds : Obligations.RdregResponds := by
  refine fun r s => ⟨fun v hr => exec_rdreg_of_implemented hr, fun hr hm => ?_, fun hr hm => ?_⟩
  · exact (exec_rdreg_of_unimplemented hr).trans (congrArg _ (illegalCommand_of_terminal (s := respond 0 s) hm))
  · exact (exec_rdreg_of_unimplemented hr).trans (congrArg _ (illegalCommand_of_not_terminal (s := respond 0 s) hm))

/-- Settles O17: PRE is the mode that takes FADJ. -/
theorem fadjCorrectsFreq : Obligations.FadjCorrectsFreq := fun _ _ hm hfinite => exec_fadj_of_finite hfinite hm

/-- Settles O19: each of the three codes names its cause, with which the fault is entered. -/
theorem abortEntersFailed : Obligations.AbortEntersFailed := fun _ hm =>
  have hnoCarrier : hostCause 1 = some .noCarrier := rfl
  have hbadPrefix : hostCause 2 = some .badPrefix := rfl
  have hhost : hostCause 7 = some .host := rfl
  ⟨exec_abort_of_hostCause hnoCarrier hm, exec_abort_of_hostCause hbadPrefix hm, exec_abort_of_hostCause hhost hm⟩

/-- Settles O21: no mode is looked at, and the reset values of FREQ, OFFSET and LASTERR are 1.0, +0 and +0. -/
theorem resetStartsSession : Obligations.ResetStartsSession := fun _ => rfl

end Sys2Proof.Machine
end

section
/-! TRAIN's pulls, its gate and its mismatch count (41_equalizer_trainer R140 to R150). -/

namespace Sys2Proof.Machine

/-! ## What a pull leaves -/

theorem samplerTake_cfg {n : Nat} {s s' : State} {xs : List Real64} {st : PullStatus}
    (h : samplerTake n s = (xs, st, s')) : s'.cfg = s.cfg := by
  obtain ⟨_, _, k, ex, as, g, he, -⟩ := samplerTake_spec n s
  obtain ⟨-, -, rfl⟩ := by simpa using he.symm.trans h
  rfl

/-- A pull answered `ok` counts its `n` samples and changes the Sampler's stream; nothing else. -/
theorem eq_pullEffect_of_samplerTake_ok {n : Nat} {s s' : State} {xs : List Real64}
    (h : samplerTake n s = (xs, .ok, s')) : s' = pullEffect n s.exhausted s'.samplerIn s'.samplerState s := by
  obtain ⟨_, st, k, ex, as, g, he, -, -, hok, -⟩ := samplerTake_spec n s
  obtain ⟨-, rfl, rfl⟩ := by simpa using he.symm.trans h
  obtain ⟨rfl, rfl, -⟩ := hok rfl
  rfl

/-! ## A pull of TRAIN (R150) -/

section
variable {n : Nat} {s s' : State} {xs : List Real64} (onOk : List Real64 → State → State)

theorem trainPull_of_ok (h : samplerTake n s = (xs, .ok, s')) : trainPull n onOk s = onOk xs s' := by
  rw [trainPull, h]

theorem trainPull_of_short (h : samplerTake n s = (xs, .short, s')) :
    trainPull n onOk s = raiseFault .underrun s' := by
  rw [trainPull, h]

theorem trainPull_of_error (h : samplerTake n s = (xs, .error, s')) :
    trainPull n onOk s = raiseFault .unexpected s' := by
  rw [trainPull, h]

end

/-! ## TRAIN, pull by pull (R140 to R143) -/

theorem exec_train_of_training {s : State} (hm : s.mode = .training) : exec .train s = .next (trainSession s) := by
  have hl : legality .train s.mode = .ok := by rw [hm]; rfl
  rw [exec, execTrain, inMode_ok _ hl]

/-- What TRAIN does once the capture is taken. -/
def trainAfterCapture (cap : List Real64) (s : State) : State :=
  trainPull s.cfg.silencePost (fun _ => trainCapture cap) s

/-- What TRAIN does once the gap is taken. -/
def trainAfterGap (s : State) : State :=
  trainPull (s.cfg.eqlen * s.cfg.nsym + s.cfg.lookahead) trainAfterCapture s

theorem trainSession_eq_pull (s : State) :
    trainSession s = trainPull s.cfg.silenceLen (fun _ => trainAfterGap) s := rfl

section
variable {s s1 s2 s3 : State} {gap cap post : List Real64}

theorem trainSession_of_gap (h1 : samplerTake s.cfg.silenceLen s = (gap, .ok, s1)) :
    trainSession s = trainPull (s.cfg.eqlen * s.cfg.nsym + s.cfg.lookahead) trainAfterCapture s1 := by
  rw [trainSession_eq_pull, trainPull_of_ok _ h1, trainAfterGap, samplerTake_cfg h1]

theorem trainSession_of_capture (h1 : samplerTake s.cfg.silenceLen s = (gap, .ok, s1))
    (h2 : samplerTake (s.cfg.eqlen * s.cfg.nsym + s.cfg.lookahead) s1 = (cap, .ok, s2)) :
    trainSession s = trainPull s.cfg.silencePost (fun _ => trainCapture cap) s2 := by
  rw [trainSession_of_gap h1, trainPull_of_ok _ h2, trainAfterCapture, samplerTake_cfg h2, samplerTake_cfg h1]

/-- All three pulls made, the gate decides, in a state that differs from the first in the samples pulled only. -/
theorem trainSession_of_pulls (h1 : samplerTake s.cfg.silenceLen s = (gap, .ok, s1))
    (h2 : samplerTake (s.cfg.eqlen * s.cfg.nsym + s.cfg.lookahead) s1 = (cap, .ok, s2))
    (h3 : samplerTake s.cfg.silencePost s2 = (post, .ok, s3)) :
    trainSession s = trainGate (equalizeSignal s.cfg cap)
      (trainErrors s.cfg (firApply s.cfg (equalizeSignal s.cfg cap) cap))
      { s with
        pulled := s.pulled + s.cfg.silenceLen + (s.cfg.eqlen * s.cfg.nsym + s.cfg.lookahead) + s.cfg.silencePost,
        samplerIn := s3.samplerIn, samplerState := s3.samplerState } := by
  have hcfg : s3.cfg = s.cfg := by rw [samplerTake_cfg h3, samplerTake_cfg h2, samplerTake_cfg h1]
  rw [trainSession_of_capture h1 h2, trainPull_of_ok _ h3, trainCapture, hcfg]
  congr 1
  rw [eq_pullEffect_of_samplerTake_ok h3, eq_pullEffect_of_samplerTake_ok h2, eq_pullEffect_of_samplerTake_ok h1]
  rfl

end

/-! ## The gate (R148, R149) -/

theorem trainGate_zero (hnew : List Real64) (s : State) :
    trainGate hnew 0 s = { s with trainerr := 0, h := hnew, eqValid := true, mode := .demodulating } := rfl

theorem trainGate_of_ne_zero {errors : Nat} (h : errors ≠ 0) (hnew : List Real64) (s : State) :
    trainGate hnew errors s = raiseFault .eqValidation { s with trainerr := BitVec.ofNat 32 errors } := if_neg h

/-! ## The mismatch count (R145 to R148) -/

theorem filterMap_getElem?_range {α : Type} (l : List α) (m n : Nat) :
    ((List.range n).filterMap fun j => l[m + j]?) = (l.drop m).take n := by
  induction n with
  | zero => rfl
  | succ n ih =>
    rw [List.range_succ, List.filterMap_append, ih, List.take_add_one, List.getElem?_drop]
    cases h : l[m + n]? <;> simp [h]

/-- R145: window `k` is the samples that follow the lookahead and the `k` windows before it. -/
theorem trainWindow_eq_filterMap (c : Config) (y : List Real64) (k : Nat) :
    trainWindow c y k = (List.range c.nsym).filterMap fun j => y[c.lookahead + k * c.nsym + j]? :=
  (filterMap_getElem?_range y _ _).symm

/-- The pairs (k, t) of the training block. -/
def trainPairs (c : Config) : List (Nat × Nat) :=
  (List.range c.eqlen).flatMap fun k => (List.range c.ntone).map fun t => (k, t)

theorem mem_trainPairs {c : Config} {k t : Nat} : (k, t) ∈ trainPairs c ↔ k < c.eqlen ∧ t < c.ntone := by
  simp [trainPairs]

theorem trainErrors_eq_countP (c : Config) (y : List Real64) :
    trainErrors c y = (trainPairs c).countP fun p => trainMismatch c y p.1 p.2 := by
  simp only [trainErrors, trainPairs, List.countP_flatMap, List.countP_map, Function.comp_def]

theorem trainErrors_eq_zero_iff (c : Config) (y : List Real64) :
    trainErrors c y = 0 ↔ ∀ k t, k < c.eqlen → t < c.ntone → trainMismatch c y k t = false := by
  simp only [trainErrors_eq_countP, List.countP_eq_zero, Prod.forall, mem_trainPairs, and_imp, Bool.not_eq_true]

/-! ## The statements -/

/-- Settles O28: with no mismatch the gate installs the estimate. -/
theorem trainInstallsFilter : Obligations.TrainInstallsFilter := by
  intro s s1 s2 s3 gap cap post hm h1 h2 h3 herrors
  rw [exec_train_of_training hm, trainSession_of_pulls h1 h2 h3, herrors, trainGate_zero]

/-- Settles O29: with a mismatch the gate records the count and faults. -/
theorem trainGateFails : Obligations.TrainGateFails := by
  intro s s1 s2 s3 gap cap post hm h1 h2 h3 herrors
  rw [exec_train_of_training hm, trainSession_of_pulls h1 h2 h3, trainGate_of_ne_zero herrors]
  rfl

/-- Settles O31: a mismatch is a pair whose symbol does not agree, and the count runs over all pairs. -/
theorem trainErrorsCountsMismatches : Obligations.TrainErrorsCountsMismatches := by
  intro c y symbol agrees pairs
  have hmismatch : ∀ k t, trainMismatch c y k t = !agrees k t := by
    intro k t
    rw [trainMismatch, trainWindow_eq_filterMap]
  refine ⟨?count, ?zero, trainErrors_le c y⟩
  case count =>
    rw [trainErrors_eq_countP]
    simp only [hmismatch]
    rfl
  case zero =>
    rw [trainErrors_eq_zero_iff]
    simp only [hmismatch, Bool.not_eq_false']

/-- Settles O30: the pulls before the one that fails hand their state on to it, and its answer names the fault. -/
theorem trainPullFails : Obligations.TrainPullFails := by
  intro s s1 s2 s3 gap cap post hm
  rw [exec_train_of_training hm]
  refine ⟨fun h1 => congrArg _ ?_, fun h1 => congrArg _ ?_, fun h1 h2 => congrArg _ ?_, fun h1 h2 => congrArg _ ?_,
    fun h1 h2 h3 => congrArg _ ?_, fun h1 h2 h3 => congrArg _ ?_⟩
  · exact trainPull_of_short _ h1
  · exact trainPull_of_error _ h1
  · exact (trainSession_of_gap h1).trans (trainPull_of_short _ h2)
  · exact (trainSession_of_gap h1).trans (trainPull_of_error _ h2)
  · exact (trainSession_of_capture h1 h2).trans (trainPull_of_short _ h3)
  · exact (trainSession_of_capture h1 h2).trans (trainPull_of_error _ h3)

end Sys2Proof.Machine
end

section
/-! One SYM step by the answers of the ports (42_demodulator R160 to R168): the pull, then the row of pushes, then the
trigger. -/

namespace Sys2Proof.Machine

/-! ## What a port leaves -/

/-- A pull answered `short` counts the samples that came and remembers the exhaustion; nothing else. -/
theorem eq_pullEffect_of_samplerTake_short {n : Nat} {s s' : State} {xs : List Real64}
    (h : samplerTake n s = (xs, .short, s')) : s' = pullEffect xs.length true s'.samplerIn s'.samplerState s := by
  obtain ⟨_, st, k, ex, as, g, he, -, hlen, -, hshort, -⟩ := samplerTake_spec n s
  obtain ⟨rfl, rfl, rfl⟩ := by simpa using he.symm.trans h
  obtain ⟨-, rfl⟩ := hshort rfl
  rw [hlen]
  rfl

/-- A pull answered `error` counts the samples that came; nothing else. -/
theorem eq_pullEffect_of_samplerTake_error {n : Nat} {s s' : State} {xs : List Real64}
    (h : samplerTake n s = (xs, .error, s')) :
    s' = pullEffect xs.length s.exhausted s'.samplerIn s'.samplerState s := by
  obtain ⟨_, st, k, ex, as, g, he, -, hlen, -, -, herror⟩ := samplerTake_spec n s
  obtain ⟨rfl, rfl, rfl⟩ := by simpa using he.symm.trans h
  rw [herror rfl, hlen]
  rfl

/-- A row of pushes answered `ok` is out and counted whole; nothing else. -/
theorem eq_pushEffect_of_pushAll_ok {ts : List BitTuple} {s s' : State} (h : pushAll ts s = (.ok, s')) :
    s' = pushEffect ts s'.sinkIn s'.sinkState s := by
  obtain ⟨a, j, as, g, he, hok, -⟩ := pushAll_spec ts s
  obtain ⟨rfl, rfl⟩ := by simpa using he.symm.trans h
  rw [hok rfl, List.take_length]
  rfl

/-- A row of pushes answered `error` is out and counted up to some tuple that it holds; nothing else. -/
theorem eq_pushEffect_of_pushAll_error {ts : List BitTuple} {s s' : State} (h : pushAll ts s = (.error, s')) :
    ∃ j, j < ts.length ∧ s' = pushEffect (ts.take j) s'.sinkIn s'.sinkState s := by
  obtain ⟨a, j, as, g, he, -, herror⟩ := pushAll_spec ts s
  obtain ⟨rfl, rfl⟩ := by simpa using he.symm.trans h
  exact ⟨j, herror rfl, rfl⟩

/-! ## SYM, answer by answer -/

theorem exec_sym_of_demodulating {s : State} (hm : s.mode = .demodulating) : exec .sym s = .next (symStep s) := by
  have hl : legality .sym s.mode = .ok := by rw [hm]; rfl
  rw [exec, execSym, inMode_ok _ hl]

/-- The tuples of a block, in tone order (R163). -/
def blockTuples (c : Config) (w : List Real64) : List BitTuple := (blockSymbols c w).map (symbolTuple c)

@[simp] theorem blockTuples_length (c : Config) (w : List Real64) : (blockTuples c w).length = c.ntone := by
  rw [blockTuples, List.length_map, blockSymbols_length]

/-- The state of a block whose window is pulled and whose tuples `ts` are out, the Sampler being where `s1` has it and
the sink where `s2` has it. -/
def emitted (w : List Real64) (ts : List BitTuple) (s1 s2 s : State) : State :=
  emitBlock (blockSymbols s.cfg w) ts s2.sinkIn s2.sinkState
    (pullEffect s.cfg.nsym s.exhausted s1.samplerIn s1.samplerState s)

section
variable {s s1 s2 : State} {w : List Real64}

/-- R161: the end of the signal. -/
theorem symStep_of_short (h : samplerTake s.cfg.nsym s = (w, .short, s1)) : symStep s = { s1 with mode := .done } := by
  rw [symStep, h]

/-- R161: a failed pull. -/
theorem symStep_of_error (h : samplerTake s.cfg.nsym s = (w, .error, s1)) :
    symStep s = raiseFault .unexpected s1 := by
  rw [symStep, h]

/-- R166: a window pulled, the ratios are appended and then the tuples pushed. -/
theorem symStep_of_ok (h : samplerTake s.cfg.nsym s = (w, .ok, s1)) :
    symStep s = pushBlock (blockSymbols s.cfg w) (accumulate (blockSymbols s.cfg w) s1) := by
  simp only [symStep, h, demodBlock, samplerTake_cfg h]

theorem pushBlock_of_ok {zs : List Cplx} (h : pushAll (zs.map (symbolTuple s.cfg)) s = (.ok, s2)) :
    pushBlock zs s = driftTrigger (countBlock s2) := by
  rw [pushBlock, h]

theorem pushBlock_of_error {zs : List Cplx} (h : pushAll (zs.map (symbolTuple s.cfg)) s = (.error, s2)) :
    pushBlock zs s = raiseFault .unexpected s2 := by
  rw [pushBlock, h]

/-- The state from which a block's tuples are pushed. -/
theorem accumulate_of_pull (h : samplerTake s.cfg.nsym s = (w, .ok, s1)) :
    accumulate (blockSymbols s.cfg w) s1 = accumulate (blockSymbols s.cfg w)
      (pullEffect s.cfg.nsym s.exhausted s1.samplerIn s1.samplerState s) :=
  congrArg (accumulate _) (eq_pullEffect_of_samplerTake_ok h)

/-- R165, R168: a block whose tuples are all accepted is counted, and the trigger decides. -/
theorem symStep_of_pushes (hpull : samplerTake s.cfg.nsym s = (w, .ok, s1))
    (hpush : pushAll (blockTuples s.cfg w) (accumulate (blockSymbols s.cfg w) s1) = (.ok, s2)) :
    symStep s = driftTrigger (countBlock (emitted w (blockTuples s.cfg w) s1 s2 s)) := by
  have hcfg := samplerTake_cfg hpull
  rw [symStep_of_ok hpull, pushBlock_of_ok (s2 := s2) (by rw [accumulate_cfg, hcfg]; exact hpush), emitted, emitBlock,
    ← accumulate_of_pull hpull, ← eq_pushEffect_of_pushAll_ok hpush]

/-- R167: a push answered `error` faults, after some of the block's tuples. -/
theorem symStep_of_push_error (hpull : samplerTake s.cfg.nsym s = (w, .ok, s1))
    (hpush : pushAll (blockTuples s.cfg w) (accumulate (blockSymbols s.cfg w) s1) = (.error, s2)) :
    ∃ j, j < s.cfg.ntone ∧ s2 = emitted w ((blockTuples s.cfg w).take j) s1 s2 s ∧
      symStep s = raiseFault .unexpected s2 := by
  have hcfg := samplerTake_cfg hpull
  obtain ⟨j, hj, hs2⟩ := eq_pushEffect_of_pushAll_error hpush
  refine ⟨j, by simpa using hj, ?_, ?_⟩
  · rw [emitted, emitBlock, ← accumulate_of_pull hpull]
    exact hs2
  · rw [symStep_of_ok hpull, pushBlock_of_error (by rw [accumulate_cfg, hcfg]; exact hpush)]

end

/-! ## The trigger (43_drift_loop R183) -/

theorem driftTrigger_of_eq {s : State} (h : s.symcnt.toNat = s.cfg.baud) : driftTrigger s = driftCorrection s :=
  if_pos h

theorem driftTrigger_of_ne {s : State} (h : s.symcnt.toNat ≠ s.cfg.baud) : driftTrigger s = s := if_neg h

/-! ## The statements -/

/-- Settles O32: the whole block is out and counted, and the trigger does nothing. -/
theorem symDemodulatesBlock : Obligations.SymDemodulatesBlock := by
  intro s s1 s2 w hm symbols tuples ratios hpull hpush hbaud
  rw [exec_sym_of_demodulating hm, symStep_of_pushes hpull hpush, driftTrigger_of_ne hbaud, emitted, emitBlock,
    pushEffect, blockTuples_length]
  rfl

/-- Settles O33: the whole block is out and counted, and the trigger corrects with all ratios. -/
theorem symMakesDriftCorrection : Obligations.SymMakesDriftCorrection := by
  intro s s1 s2 w hm symbols tuples ratios hpull hpush hbaud mean
  rw [exec_sym_of_demodulating hm, symStep_of_pushes hpull hpush, driftTrigger_of_eq hbaud, emitted, emitBlock,
    pushEffect, blockTuples_length]
  rfl

/-- Settles O34: the pull answered `short` is all that happens before DONE. -/
theorem symAtEndOfSignal : Obligations.SymAtEndOfSignal := by
  intro s s1 w hm hpull
  rw [exec_sym_of_demodulating hm, symStep_of_short hpull, eq_pullEffect_of_samplerTake_short hpull]
  rfl

/-- Settles O35: the fault comes after the pull, or after the pushes up to the one that failed. -/
theorem symPortErrorFaults : Obligations.SymPortErrorFaults := by
  intro s s1 s2 w hm symbols tuples ratios faulted
  have hcount : tuples.length = s.cfg.ntone := blockTuples_length s.cfg w
  rw [exec_sym_of_demodulating hm]
  refine ⟨fun hpull => ?pull, fun hpull hpush => ?push, fun hpull j as hj hin => ?sink⟩
  case pull =>
    rw [symStep_of_error hpull, eq_pullEffect_of_samplerTake_error hpull]
    rfl
  case push =>
    obtain ⟨j, hj, hs2, hsym⟩ := symStep_of_push_error hpull hpush
    have hlen : (tuples.take j).length = j := List.length_take_of_le (by omega)
    have hbits : s2.bitcnt = s.bitcnt + BitVec.ofNat 64 ((tuples.take j).length * s.cfg.bps) :=
      congrArg State.bitcnt hs2
    refine ⟨?_, j, hj, congrArg State.out hs2, by rw [hbits, hlen]⟩
    rw [hsym, hs2]
    rfl
  case sink =>
    have hs1 := eq_pullEffect_of_samplerTake_ok hpull
    have hsink : (accumulate symbols s1).sinkIn = List.replicate j .ok ++ .error :: as := by
      rw [hs1]
      exact hin
    obtain ⟨hstops, -⟩ := pushesStopAtFirstError tuples j as (accumulate symbols s1)
    obtain ⟨-, -, -, hsym⟩ := symStep_of_push_error hpull (hstops (by omega) hsink)
    rw [hsym, hs1]
    rfl

end Sys2Proof.Machine
end

section
/-! The symbols of a block and the slicer's answer for each (42_demodulator R162 to R164, R170; 44_kernels R198;
00_scope R10). -/

namespace Sys2Proof.Machine

/-- R162: the symbol of tone `t`. -/
theorem blockSymbols_getElem? {c : Config} {t : Nat} (w : List Real64) (h : t < c.ntone) :
    (blockSymbols c w)[t]? = some (correlate c w t) := by
  rw [blockSymbols, List.getElem?_map, List.getElem?_range h, Option.map_some]

/-- `CONST` has `M` points. -/
theorem const_length_of_configOk {c : Config} (h : configOk c = true) : c.const.length = c.m := by
  obtain ⟨-, hshapes⟩ := configOk_parts h
  simp only [shapesOk, Bool.and_eq_true, beq_iff_eq] at hshapes
  obtain ⟨⟨⟨⟨⟨⟨⟨-, hconst⟩, -⟩, -⟩, -⟩, -⟩, -⟩, -⟩ := hshapes
  exact hconst

/-- No point of the constellation is zero. -/
theorem const_ne_zero_of_configOk {c : Config} (h : configOk c = true) {z : Cplx} (hz : z ∈ c.const) :
    cplxEq c z cplxZero = false := by
  simp only [configOk, symbolsOk, Bool.and_eq_true, List.all_eq_true, Bool.not_eq_true'] at h
  obtain ⟨-, ⟨⟨hnonzero, -⟩, -⟩, -⟩ := h
  exact hnonzero z hz

section
variable {c : Config} (h : configOk c = true) (z : Cplx)
include h

theorem slice_lt_m : slice c z < c.m := by
  obtain ⟨hpos, -, -⟩ := configOk_constellation h
  rw [← const_length_of_configOk h]
  exact slice_lt_length hpos z

/-- R164: the point that a symbol is divided by. -/
theorem slicedPoint_ne_zero : cplxEq c (c.const.getD (slice c z) cplxZero) cplxZero = false := by
  have hlt : slice c z < c.const.length := by rw [const_length_of_configOk h]; exact slice_lt_m h z
  rw [List.getD_eq_getElem?_getD, List.getElem?_eq_getElem hlt, Option.getD_some]
  exact const_ne_zero_of_configOk h (List.getElem_mem hlt)

/-- R163: `BITMAP` has a tuple at the index of every symbol. -/
theorem bitmap_getElem?_slice : c.bitmap[slice c z]? = some (symbolTuple c z) := by
  obtain ⟨-, hbitmap, -⟩ := configOk_constellation h
  have hlt : slice c z < c.bitmap.length := by rw [hbitmap, const_length_of_configOk h]; exact slice_lt_m h z
  rw [symbolTuple, List.getD_eq_getElem?_getD, List.getElem?_eq_getElem hlt, Option.getD_some]

end

/-- Settles O40: the slicer's index is below `M`, and CONST and BITMAP have `M` entries as R10 asks them to be. -/
theorem everySymbolIsSliced : Obligations.EverySymbolIsSliced := by
  intro c
  refine ⟨fun w => ⟨blockSymbols_length c w, fun t ht => blockSymbols_getElem? w ht⟩, fun hslice z => ?reference,
    fun h z => ⟨slice_lt_m h z, slicedPoint_ne_zero h z, bitmap_getElem?_slice h z, symbolTuple_length h z⟩⟩
  case reference => rw [slice, hslice]

end Sys2Proof.Machine
end

section
/-! RUN as a row of SYM steps (42_demodulator R169, 70_reset R262). The pending words and the RUN in progress are where
the loop is; a SYM step reads neither, so that what n SYM commands do and what RUN n does is one function iterated. -/

namespace Sys2Proof.Machine

/-! ## A SYM step reads neither the pending words nor the RUN in progress -/

/-- `s` at another place of its command stream: the words `ws` pending and the RUN `r` in progress. -/
def atPlace (ws : List Word) (r : Option RunLoop) (s : State) : State := { s with cmds := ws, run := r }

@[simp] theorem atPlace_atPlace (ws vs : List Word) (q r : Option RunLoop) (s : State) :
    atPlace ws q (atPlace vs r s) = atPlace ws q s := rfl

section
variable (ws : List Word) (r : Option RunLoop) (s : State)

theorem askSampler_atPlace (n : Nat) :
    askSampler n (atPlace ws r s) = ((askSampler n s).1, atPlace ws r (askSampler n s).2) := by
  cases h : s.samplerIn <;> simp [askSampler, atPlace, h]

theorem takeAnswer_atPlace (n : Nat) (a : PullAnswer) :
    takeAnswer n a (atPlace ws r s) =
      ((takeAnswer n a s).1, (takeAnswer n a s).2.1, atPlace ws r (takeAnswer n a s).2.2) := by
  cases h : pullStatus n a <;> simp only [takeAnswer, h] <;> rfl

theorem samplerTake_atPlace (n : Nat) :
    samplerTake n (atPlace ws r s) =
      ((samplerTake n s).1, (samplerTake n s).2.1, atPlace ws r (samplerTake n s).2.2) := by
  have hex : (atPlace ws r s).exhausted = s.exhausted := rfl
  simp only [samplerTake, askSampler_atPlace, takeAnswer_atPlace, hex]
  split
  · rfl
  · split <;> rfl

theorem askSink_atPlace (t : BitTuple) :
    askSink t (atPlace ws r s) = ((askSink t s).1, atPlace ws r (askSink t s).2) := by
  cases h : s.sinkIn <;> simp [askSink, atPlace, h]

theorem bitPush_atPlace (t : BitTuple) :
    bitPush t (atPlace ws r s) = ((bitPush t s).1, atPlace ws r (bitPush t s).2) := by
  obtain ⟨a, s', h⟩ : ∃ a s', askSink t s = (a, s') := ⟨_, _, rfl⟩
  cases a with
  | ok => simp only [bitPush, askSink_atPlace, h]; rfl
  | error => simp only [bitPush, askSink_atPlace, h]

theorem pushAll_atPlace (ts : List BitTuple) :
    pushAll ts (atPlace ws r s) = ((pushAll ts s).1, atPlace ws r (pushAll ts s).2) := by
  induction ts generalizing s with
  | nil => rfl
  | cons t ts ih =>
    obtain ⟨a, s', h⟩ : ∃ a s', bitPush t s = (a, s') := ⟨_, _, rfl⟩
    cases a with
    | ok => simp only [pushAll, bitPush_atPlace, h, ih]
    | error => simp only [pushAll, bitPush_atPlace, h]

theorem driftTrigger_atPlace : driftTrigger (atPlace ws r s) = atPlace ws r (driftTrigger s) := by
  rcases driftTrigger_cases s with ⟨hb, h⟩ | ⟨hb, h⟩
  · rw [h, driftTrigger_of_eq (s := atPlace ws r s) hb]; rfl
  · rw [h, driftTrigger_of_ne (s := atPlace ws r s) hb]

end

/-- The place apart, a block ends the same from every place; a fault entry ends a RUN, so the place is not kept. -/
theorem atPlace_pushBlock_atPlace (ws vs : List Word) (q r : Option RunLoop) (zs : List Cplx) (s : State) :
    atPlace ws q (pushBlock zs (atPlace vs r s)) = atPlace ws q (pushBlock zs s) := by
  have hcfg : (atPlace vs r s).cfg = s.cfg := rfl
  obtain ⟨a, s', h⟩ : ∃ a s', pushAll (zs.map (symbolTuple s.cfg)) s = (a, s') := ⟨_, _, rfl⟩
  cases a with
  | ok =>
    simp only [pushBlock, hcfg, pushAll_atPlace, h]
    change atPlace ws q (driftTrigger (atPlace vs r (countBlock s'))) = _
    rw [driftTrigger_atPlace, atPlace_atPlace]
  | error =>
    simp only [pushBlock, hcfg, pushAll_atPlace, h]
    rfl

/-- The place apart, a SYM step ends the same from every place. -/
theorem atPlace_symStep_atPlace (ws vs : List Word) (q r : Option RunLoop) (s : State) :
    atPlace ws q (symStep (atPlace vs r s)) = atPlace ws q (symStep s) := by
  have hcfg : (atPlace vs r s).cfg = s.cfg := rfl
  obtain ⟨w, st, s', h⟩ : ∃ w st s', samplerTake s.cfg.nsym s = (w, st, s') := ⟨_, _, _, rfl⟩
  cases st with
  | ok =>
    simp only [symStep, hcfg, samplerTake_atPlace, h]
    exact atPlace_pushBlock_atPlace ws vs q r (blockSymbols s'.cfg w) (accumulate (blockSymbols s'.cfg w) s')
  | short =>
    simp only [symStep, hcfg, samplerTake_atPlace, h]
    rfl
  | error =>
    simp only [symStep, hcfg, samplerTake_atPlace, h]
    rfl

theorem symStep_cmds (s : State) : (symStep s).cmds = s.cmds := by
  obtain ⟨hcmds, -⟩ := symStep_cmds_resp s
  exact hcmds

theorem symStep_resetIn (s : State) : (symStep s).resetIn = s.resetIn := by
  obtain ⟨-, -, hreset, -⟩ := symStep_cmds_resp s
  exact hreset

theorem eq_atPlace {s : State} {ws : List Word} {r : Option RunLoop} (hcmds : s.cmds = ws) (hrun : s.run = r) :
    s = atPlace ws r s := by
  subst hcmds hrun
  rfl

theorem setCmds_eq_atPlace {s : State} (hrun : s.run = none) (ws : List Word) :
    { s with cmds := ws } = atPlace ws none s :=
  eq_atPlace (s := { s with cmds := ws }) rfl hrun

/-- With no RUN in progress a SYM step keeps its place. -/
theorem symStep_atPlace_none (ws : List Word) (s : State) :
    symStep (atPlace ws none s) = atPlace ws none (symStep s) := by
  have hrun : (symStep (atPlace ws none s)).run = none := symStep_run_of_none rfl
  rw [eq_atPlace (symStep_cmds _) hrun]
  exact atPlace_symStep_atPlace ws ws none none s

/-! ## SYM commands in a row -/

/-- What the command SYM does in the present mode. -/
def symCommand (s : State) : State := inMode .sym symStep s

/-- `k` SYM commands in a row. -/
def symCommands : Nat → State → State
  | 0, s => s
  | k + 1, s => symCommands k (symCommand s)

theorem symCommands_succ (k : Nat) (s : State) : symCommands (k + 1) s = symCommands k (symCommand s) := rfl

theorem exec_sym (s : State) : exec .sym s = .next (symCommand s) := rfl

theorem symCommand_of_demodulating {s : State} (h : s.mode = .demodulating) : symCommand s = symStep s :=
  inMode_ok symStep (by rw [h]; rfl)

theorem symCommand_of_terminal {s : State} (h : s.mode.terminal = true) : symCommand s = s := by
  have hne : legality .sym s.mode ≠ .ok := legality_ne_ok_of_terminal h nofun nofun nofun
  rw [symCommand, inMode_of_legality_ne_ok symStep hne, illegalCommand_of_terminal h]

theorem symCommand_atPlace_none (ws : List Word) (s : State) :
    symCommand (atPlace ws none s) = atPlace ws none (symCommand s) := by
  rcases inMode_cases .sym symStep s with ⟨hl, h⟩ | ⟨hl, h⟩ | ⟨hl, h⟩
  · rw [symCommand, symCommand, h, ← symStep_atPlace_none]; exact inMode_ok symStep hl
  · rw [symCommand, symCommand, h]; exact inMode_ill symStep hl
  · rw [symCommand, symCommand, h]; exact inMode_ign symStep hl

theorem symCommands_of_terminal {s : State} (h : s.mode.terminal = true) (k : Nat) : symCommands k s = s := by
  induction k with
  | zero => rfl
  | succ k ih => rw [symCommands_succ, symCommand_of_terminal h, ih]

/-- A block that has left DEMODULATING by a SYM step takes no further SYM. -/
theorem symCommands_of_left {s : State} (hm : s.mode = .demodulating)
    (hleft : (symStep s).mode ≠ .demodulating) (k : Nat) : symCommands k (symStep s) = symStep s := by
  refine symCommands_of_terminal ?_ k
  rcases symStep_mode_cases s with h | ⟨h, -⟩ | h
  · exact absurd (h.trans hm) hleft
  · rw [h]; rfl
  · rw [h]; rfl

/-- A step of the block is a SYM step or a command: it is not refused, and no reset comes before it. -/
def Ready (s : State) : Prop := configOk s.cfg = true ∧ s.resetIn = false

theorem Ready.after_symStep {s : State} (h : Ready s) : Ready (symStep s) := by
  obtain ⟨hconfig, hreset⟩ := h
  exact ⟨by rw [symStep_cfg]; exact hconfig, by rw [symStep_resetIn]; exact hreset⟩

theorem Ready.after_symCommand {s : State} (h : Ready s) : Ready (symCommand s) := by
  rcases inMode_cases .sym symStep s with ⟨-, he⟩ | ⟨-, he⟩ | ⟨-, he⟩
  · rw [symCommand, he]; exact h.after_symStep
  · rw [symCommand, he]; exact h
  · rw [symCommand, he]; exact h

theorem Ready.after_symCommands {s : State} (h : Ready s) (k : Nat) : Ready (symCommands k s) := by
  induction k generalizing s with
  | zero => exact h
  | succ k ih => exact ih h.after_symCommand

/-- The first pending command is executed from the place after it. -/
theorem Ready.step_command {s : State} (h : Ready s) (i : Instr) (ws : List Word) :
    step (atPlace (encode i ++ ws) none s) = exec i (atPlace ws none s) := by
  obtain ⟨hconfig, hreset⟩ := h
  exact stepRunsDecodedCommand (atPlace (encode i ++ ws) none s) i ws hconfig hreset rfl (decodeOfEncode i ws)

theorem Ready.step_sym {s : State} (h : Ready s) (ws : List Word) :
    step (atPlace (0x05000000 :: ws) none s) = .next (atPlace ws none (symCommand s)) := by
  rw [← symCommand_atPlace_none, ← exec_sym]
  exact h.step_command .sym ws

/-! ## Steps in a row -/

section
variable {s t : State}

theorem core_run_succ (h : step s = .next t) (k : Nat) : core.run (k + 1) s = core.run k t := by
  simp only [Host.Core.run, show core.step s = .next t from h]

theorem core_run_one (h : step s = .next t) : core.run 1 s = .next t := core_run_succ h 0

/-- What comes of one step or more depends on what comes of the first only. -/
theorem core_run_congr (h : step s = step t) {k : Nat} (hk : 0 < k) : core.run k s = core.run k t := by
  obtain ⟨k, rfl⟩ := Nat.exists_eq_add_one_of_ne_zero (Nat.ne_of_gt hk)
  simp only [Host.Core.run, show core.step s = core.step t from h]

theorem core_run_of_fixed (h : step t = .next t) (k : Nat) : core.run k t = .next t := by
  induction k with
  | zero => rfl
  | succ k ih => rw [core_run_succ h, ih]

theorem core_run_add {m : Nat} (h : core.run m s = .next t) (k : Nat) : core.run (m + k) s = core.run k t := by
  induction m generalizing s with
  | zero =>
    obtain rfl : s = t := Host.Outcome.next.inj h
    rw [Nat.zero_add]
  | succ m ih =>
    cases hs : step s with
    | next u =>
      rw [Nat.add_right_comm, core_run_succ hs]
      exact ih (by rw [← core_run_succ hs]; exact h)
    | fault r => nomatch r
    | refused r => simp [Host.Core.run, show core.step s = .refused r from hs] at h

/-- A block that has come to wait is there after any number of further steps. -/
theorem core_run_of_le {m n : Nat} (h : core.run m s = .next t) (ht : step t = .next t) (hmn : m ≤ n) :
    core.run n s = .next t := by
  obtain ⟨k, rfl⟩ := Nat.exists_eq_add_of_le hmn
  rw [core_run_add h, core_run_of_fixed ht]

end

theorem Ready.step_of_waiting {s : State} (h : Ready s) (hrun : s.run = none) (hd : decode s.cmds = .needMore) :
    step s = .next s := by
  obtain ⟨hconfig, hreset⟩ := h
  simp only [step, fetch, hconfig, hreset, hrun, hd, Bool.true_eq_false, Bool.false_eq_true, if_false]

theorem Ready.step_of_running {s : State} {r : RunLoop} (h : Ready s) (hrun : s.run = some r) :
    step s = .next (runTurn r.n r.i s) := by
  obtain ⟨hconfig, hreset⟩ := h
  simp only [step, hconfig, hreset, hrun, Bool.true_eq_false, Bool.false_eq_true, if_false]

theorem Ready.step_waiting {s : State} (h : Ready s) : step (atPlace [] none s) = .next (atPlace [] none s) :=
  Ready.step_of_waiting (s := atPlace [] none s) h rfl rfl

theorem Ready.core_run_syms {s : State} (h : Ready s) (k : Nat) (ws : List Word) :
    core.run k (atPlace (List.replicate k 0x05000000 ++ ws) none s) = .next (atPlace ws none (symCommands k s)) := by
  induction k generalizing s with
  | zero => rfl
  | succ k ih =>
    rw [List.replicate_succ, List.cons_append, core_run_succ (h.step_sym _), ih h.after_symCommand,
      symCommands_succ]

/-! ## The turns of RUN -/

/-- The count after a turn of RUN (44_kernels R207 (d)). -/
def nextCount (n i : BitVec 24) : BitVec 24 := if n = 0 then 0 else i + 1

/-- The RUN that is in progress with the count `i` made, if the loop's test lets it go on. -/
def runAt (n i : BitVec 24) (s : State) : Option RunLoop := if runGoesOn n i s then some ⟨n, i⟩ else none

theorem runAt_of_mode_eq (n i : BitVec 24) {s t : State} (h : s.mode = t.mode) : runAt n i s = runAt n i t := by
  have hgo : runGoesOn n i s = runGoesOn n i t := by rw [runGoesOn, runGoesOn, h]
  rw [runAt, runAt, hgo]

theorem runAfter_eq (n i : BitVec 24) (s : State) : runAfter n i s = { s with run := runAt n (nextCount n i) s } := by
  by_cases h : runGoesOn n (nextCount n i) s = true
  · rw [runAt, if_pos h]; exact if_pos h
  · rw [runAt, if_neg h]; exact if_neg h

/-- A turn that the loop's test lets RUN make: a SYM step, then the test. -/
theorem runTurn_atPlace {n i : BitVec 24} {s : State} (hgo : runGoesOn n i s = true) (ws : List Word)
    (r : Option RunLoop) :
    runTurn n i (atPlace ws r s) = atPlace ws (runAt n (nextCount n i) (symStep s)) (symStep s) := by
  have hmode : (symStep (atPlace ws r s)).mode = (symStep s).mode :=
    (congrArg State.mode (atPlace_symStep_atPlace ws ws none r s) :)
  have hgo : runGoesOn n i (atPlace ws r s) = true := hgo
  rw [runTurn, if_pos hgo, runAfter_eq, runAt_of_mode_eq _ _ hmode, ← atPlace_symStep_atPlace ws ws _ r]
  exact eq_atPlace (symStep_cmds _) rfl

theorem runGoesOn_zero {n : BitVec 24} {s : State} (hm : s.mode = .demodulating) : runGoesOn n 0 s = true :=
  (runGoesOn_iff n 0 s).2 ⟨hm, by
    by_cases hn : n = 0
    · exact .inl hn
    · exact .inr (by bv_omega)⟩

theorem Ready.step_turn {n i : BitVec 24} {s : State} (h : Ready s) (hgo : runGoesOn n i s = true) (ws : List Word) :
    step (atPlace ws (some ⟨n, i⟩) s) =
      .next (atPlace ws (runAt n (nextCount n i) (symStep s)) (symStep s)) := by
  rw [← runTurn_atPlace hgo ws (some ⟨n, i⟩)]
  exact Ready.step_of_running (s := atPlace ws (some ⟨n, i⟩) s) h rfl

theorem exec_run_of_demodulating {s : State} (n : BitVec 24) (hm : s.mode = .demodulating) :
    exec (.run n) s = .next (runTurn n 0 s) := by
  have hl : legality (.run n) s.mode = .ok := by rw [hm]; rfl
  rw [exec, execRun, inMode_ok _ hl]

/-- Log 15: the step that takes RUN makes the turn that a RUN with no turn made would make. -/
theorem Ready.step_run {n : BitVec 24} {s : State} (h : Ready s) (hm : s.mode = .demodulating) (ws : List Word) :
    step (atPlace (encode (.run n) ++ ws) none s) = step (atPlace ws (some ⟨n, 0⟩) s) := by
  rw [h.step_command, exec_run_of_demodulating n (s := atPlace ws none s) hm, runTurn_atPlace (runGoesOn_zero hm),
    h.step_turn (runGoesOn_zero hm)]

/-- When the loop's test ends a RUN that had `j` more turns to make, no SYM command does anything either: there is no
turn left, or the block has left DEMODULATING. -/
theorem symCommands_of_runEnds {n i : BitVec 24} {j : Nat} {s : State} (hm : s.mode = .demodulating)
    (hleft : (i + 1).toNat + j = n.toNat) (hend : runGoesOn n (i + 1) (symStep s) = false) :
    symCommands j (symStep s) = symStep s := by
  by_cases hm' : (symStep s).mode = .demodulating
  · have hlast : ¬ (i + 1).toNat < n.toNat := fun hlt =>
      Bool.false_ne_true (hend.symm.trans ((runGoesOn_iff _ _ _).2 ⟨hm', .inr hlt⟩))
    obtain rfl : j = 0 := by omega
    rfl
  · exact symCommands_of_left hm hm' j

/-- A RUN with `j` turns left comes, in `j` steps or fewer, to where `j` SYM commands lead. -/
theorem core_run_turns {n i : BitVec 24} {j : Nat} {s : State} (hs : Ready s) (hm : s.mode = .demodulating)
    (hn : n ≠ 0) (hj : 0 < j) (hleft : i.toNat + j = n.toNat) (ws : List Word) :
    ∃ m, 0 < m ∧ m ≤ j ∧
      core.run m (atPlace ws (some ⟨n, i⟩) s) = .next (atPlace ws none (symCommands j s)) := by
  induction j generalizing i s with
  | zero => cases hj
  | succ j ih =>
    have hgo : runGoesOn n i s = true := (runGoesOn_iff n i s).2 ⟨hm, .inr (by omega)⟩
    have hstep := hs.step_turn hgo ws
    have hcount : nextCount n i = i + 1 := if_neg hn
    have hnat : (i + 1).toNat = i.toNat + 1 := by bv_omega
    rw [hcount, runAt] at hstep
    rw [symCommands_succ, symCommand_of_demodulating hm]
    cases hgo' : runGoesOn n (i + 1) (symStep s) with
    | true =>
      obtain ⟨hm', hlt⟩ := (runGoesOn_iff _ _ _).1 hgo'
      have hlt := hlt.resolve_left hn
      obtain ⟨m, hpos, hle, hrun⟩ := ih (i := i + 1) hs.after_symStep hm' (by omega) (by omega)
      rw [hgo', if_pos rfl] at hstep
      exact ⟨m + 1, Nat.succ_pos m, Nat.succ_le_succ hle, by rw [core_run_succ hstep, hrun]⟩
    | false =>
      have hend := symCommands_of_runEnds hm (j := j) (by omega) hgo'
      rw [hgo', if_neg Bool.false_ne_true] at hstep
      exact ⟨1, Nat.one_pos, Nat.succ_le_succ (Nat.zero_le j), by rw [core_run_one hstep, hend]⟩

/-- RUN n comes, in n steps or fewer, to where n SYM commands lead (R169). -/
theorem core_run_runCommand {n : BitVec 24} {s : State} (hs : Ready s) (hm : s.mode = .demodulating) (hn : n ≠ 0)
    (ws : List Word) :
    ∃ m, 0 < m ∧ m ≤ n.toNat ∧
      core.run m (atPlace (encode (.run n) ++ ws) none s) = .next (atPlace ws none (symCommands n.toNat s)) := by
  have hpos : 0 < n.toNat := by bv_omega
  obtain ⟨m, hm0, hle, h⟩ := core_run_turns hs hm hn hpos (i := 0) (by simp) ws
  exact ⟨m, hm0, hle, by rw [core_run_congr (hs.step_run hm ws) hm0, h]⟩

/-- A RUN 0 in progress makes a SYM step a step until the block leaves DEMODULATING. -/
theorem core_run_unlimited (k : Nat) {s : State} (hs : Ready s) (hm : s.mode = .demodulating) :
    core.run k (atPlace [] (some ⟨0, 0⟩) s) =
      .next (atPlace [] (if (symCommands k s).mode = .demodulating then some ⟨0, 0⟩ else none)
        (symCommands k s)) := by
  induction k generalizing s with
  | zero => rw [symCommands, if_pos hm]; rfl
  | succ k ih =>
    rw [symCommands_succ, symCommand_of_demodulating hm, core_run_succ (hs.step_turn (runGoesOn_zero hm) []),
      show nextCount 0 0 = 0 from rfl, runAt]
    by_cases hm' : (symStep s).mode = .demodulating
    · rw [if_pos (runGoesOn_zero hm'), ih hs.after_symStep hm']
    · have hend : ¬ runGoesOn 0 0 (symStep s) = true := fun h => hm' ((runGoesOn_iff _ _ _).1 h).1
      rw [if_neg hend, symCommands_of_left hm hm', if_neg hm', core_run_of_fixed hs.after_symStep.step_waiting]

/-! ## The statements -/

/-- Settles O36: the first turn of RUN is SYM's step, and the loop's test after it is that of R169. -/
theorem runMakesFirstSymStep : Obligations.RunMakesFirstSymStep := by
  intro n s hm
  have hturn := runTurn_atPlace (runGoesOn_zero (n := n) hm) s.cmds s.run
  have htest : runAt n (nextCount n 0) (symStep s) =
      if (symStep s).mode = .demodulating ∧ n = 0 then some ⟨0, 0⟩
      else if (symStep s).mode = .demodulating ∧ 1 < n.toNat then some ⟨n, 1⟩ else none := by
    by_cases hn : n = 0
    · subst hn
      simp [runAt, nextCount, runGoesOn_iff]
    · have hn : n ≠ 0#24 := hn
      simp [runAt, nextCount, runGoesOn_iff, hn]
  refine ⟨symStep s, exec_sym_of_demodulating hm, ?_⟩
  rw [exec_run_of_demodulating n hm, ← htest]
  refine congrArg _ (hturn.trans ?_)
  rw [atPlace, ← symStep_cmds]

/-- Settles O37: RUN n and n SYM commands come to one state, and a block with nothing pending waits there. -/
theorem runIsThatManySyms : Obligations.RunIsThatManySyms := by
  intro n s hn hconfig hm hreset hrun
  have hs : Ready s := ⟨hconfig, hreset⟩
  simp only [setCmds_eq_atPlace hrun]
  refine ⟨?alone, fun rest => ?followed⟩
  case alone =>
    obtain ⟨m, -, hle, h⟩ := core_run_runCommand hs hm hn []
    have hend : Ready (symCommands n.toNat s) := hs.after_symCommands n.toNat
    have hsyms := hs.core_run_syms n.toNat []
    rw [List.append_nil] at h hsyms
    rw [hsyms, core_run_of_le h hend.step_waiting hle]
  case followed =>
    obtain ⟨m, hm0, hle, h⟩ := core_run_runCommand hs hm hn rest
    exact ⟨m, _, hm0, hle, rfl, rfl, h, hs.core_run_syms n.toNat rest⟩

/-- Settles O38: RUN 0 is in progress from its first step on, and ends when the block leaves DEMODULATING. -/
theorem runZeroHasNoLimit : Obligations.RunZeroHasNoLimit := by
  intro k s t hk hconfig hm hreset hrun hsyms
  have hs : Ready s := ⟨hconfig, hreset⟩
  have hrow := hs.core_run_syms k []
  rw [List.append_nil, ← setCmds_eq_atPlace hrun, hsyms] at hrow
  obtain rfl : t = atPlace [] none (symCommands k s) := Host.Outcome.next.inj hrow
  have hstep := hs.step_run (n := 0) hm []
  rw [List.append_nil] at hstep
  rw [setCmds_eq_atPlace hrun, core_run_congr hstep hk, core_run_unlimited k hs hm]
  rfl

end Sys2Proof.Machine
end

section
/-! Telemetry is not feedback (43_drift_loop R188, 10_state R33): every operation of the block takes states that differ
only in telemetry and responses to states that differ only in them. -/

namespace Sys2Proof.Machine

/-! ## States that differ only in telemetry -/

/-- `s` and `t` differ at most in their telemetry and in the responses already made. -/
def SameButTelemetry (s t : State) : Prop := withoutTelemetry s = withoutTelemetry t

/-- Telemetry is not feedback in `f`. -/
def IgnoresTelemetry (f : State → State) : Prop :=
  ∀ s t : State, SameButTelemetry s t → SameButTelemetry (f s) (f t)

section
variable {s t : State}

theorem SameButTelemetry.cfg (h : SameButTelemetry s t) : s.cfg = t.cfg := (congrArg State.cfg h :)
theorem SameButTelemetry.mode (h : SameButTelemetry s t) : s.mode = t.mode := (congrArg State.mode h :)
theorem SameButTelemetry.run (h : SameButTelemetry s t) : s.run = t.run := (congrArg State.run h :)
theorem SameButTelemetry.cmds (h : SameButTelemetry s t) : s.cmds = t.cmds := (congrArg State.cmds h :)
theorem SameButTelemetry.resetIn (h : SameButTelemetry s t) : s.resetIn = t.resetIn := (congrArg State.resetIn h :)

theorem SameButTelemetry.map (h : SameButTelemetry s t) {f : State → State} (hf : IgnoresTelemetry f) :
    SameButTelemetry (f s) (f t) :=
  hf s t h

theorem SameButTelemetry.respond (h : SameButTelemetry s t) (v w : Word64) :
    SameButTelemetry (respond v s) (respond w t) := h

end

/-- It is enough that blanking the telemetry beforehand makes no difference but to telemetry. -/
theorem IgnoresTelemetry.of_blank {f : State → State}
    (hf : ∀ s, withoutTelemetry (f (withoutTelemetry s)) = withoutTelemetry (f s)) : IgnoresTelemetry f := by
  intro s t h
  calc withoutTelemetry (f s)
      = withoutTelemetry (f (withoutTelemetry s)) := (hf s).symm
    _ = withoutTelemetry (f (withoutTelemetry t)) := congrArg (fun u => withoutTelemetry (f u)) h
    _ = withoutTelemetry (f t) := hf t

/-- A test that reads no telemetry may choose between two such operations. -/
theorem IgnoresTelemetry.ite {p : State → Prop} [DecidablePred p] {f g : State → State}
    (hp : ∀ s, p (withoutTelemetry s) ↔ p s) (hf : IgnoresTelemetry f) (hg : IgnoresTelemetry g) :
    IgnoresTelemetry fun s => if p s then f s else g s := by
  intro s t h
  have hst : p s ↔ p t := by rw [← hp s, ← hp t, h]
  by_cases hs : p s
  · simpa only [if_pos hs, if_pos (hst.1 hs)] using h.map hf
  · simpa only [if_neg hs, if_neg (mt hst.2 hs)] using h.map hg

/-! ## Faults, resets, counters and the drift correction -/

theorem ignoresTelemetry_raiseFault (c : Cause) : IgnoresTelemetry (raiseFault c) := .of_blank fun _ => rfl
theorem ignoresTelemetry_sessionReset : IgnoresTelemetry sessionReset := .of_blank fun _ => rfl
theorem ignoresTelemetry_resetInput : IgnoresTelemetry resetInput := .of_blank fun _ => rfl
theorem ignoresTelemetry_adjustFreq (delta : Real64) : IgnoresTelemetry (adjustFreq delta) := .of_blank fun _ => rfl
theorem ignoresTelemetry_countBlock : IgnoresTelemetry countBlock := .of_blank fun _ => rfl
theorem ignoresTelemetry_accumulate (zs : List Cplx) : IgnoresTelemetry (accumulate zs) := .of_blank fun _ => rfl

/-- The correction is computed from ERR, FREQ and OFFSET; NCORR and LASTERR are written only (R184, R188). -/
theorem ignoresTelemetry_driftCorrection : IgnoresTelemetry driftCorrection := .of_blank fun _ => rfl

/-- The trigger compares SYMCNT, which is no telemetry (R183). -/
theorem ignoresTelemetry_driftTrigger : IgnoresTelemetry driftTrigger :=
  .ite (fun _ => Iff.rfl) ignoresTelemetry_driftCorrection fun _ _ h => h

theorem ignoresTelemetry_illegalCommand : IgnoresTelemetry illegalCommand :=
  .ite (fun _ => Iff.rfl) (fun _ _ h => h) (ignoresTelemetry_raiseFault .illegalCommand)

/-- The response of an illegal word is itself among what may differ. -/
theorem ignoresTelemetry_executeIllegal (why : Reject) : IgnoresTelemetry (executeIllegal why) := by
  cases why with
  | reservedOpcode op => exact ignoresTelemetry_illegalCommand
  | mustBeZero op =>
    exact .ite (p := fun _ => op = 0x01) (fun _ => Iff.rfl)
      (fun _ _ h => (h.respond 0 0).map ignoresTelemetry_illegalCommand) ignoresTelemetry_illegalCommand

/-- Legality looks at the mode only. -/
theorem ignoresTelemetry_inMode (i : Instr) {f : State → State} (hf : IgnoresTelemetry f) :
    IgnoresTelemetry (inMode i f) := by
  intro s t h
  rcases inMode_cases i f s with ⟨hl, he⟩ | ⟨hl, he⟩ | ⟨hl, he⟩
  · rw [he, inMode_ok f (h.mode ▸ hl)]; exact h.map hf
  · rw [he, inMode_ill f (h.mode ▸ hl)]; exact h.map (ignoresTelemetry_raiseFault .illegalCommand)
  · rw [he, inMode_ign f (h.mode ▸ hl)]; exact h

/-! ## Pulls and TRAIN -/

theorem askSampler_withoutTelemetry (n : Nat) (s : State) :
    askSampler n (withoutTelemetry s) = ((askSampler n s).1, withoutTelemetry (askSampler n s).2) := by
  cases h : s.samplerIn <;> simp [askSampler, withoutTelemetry, h]

theorem takeAnswer_withoutTelemetry (n : Nat) (a : PullAnswer) (s : State) : takeAnswer n a (withoutTelemetry s) =
    ((takeAnswer n a s).1, (takeAnswer n a s).2.1, withoutTelemetry (takeAnswer n a s).2.2) := by
  cases h : pullStatus n a <;> simp only [takeAnswer, h] <;> rfl

/-- A pull neither reads nor writes telemetry. -/
theorem samplerTake_withoutTelemetry (n : Nat) (s : State) : samplerTake n (withoutTelemetry s) =
    ((samplerTake n s).1, (samplerTake n s).2.1, withoutTelemetry (samplerTake n s).2.2) := by
  have hex : (withoutTelemetry s).exhausted = s.exhausted := rfl
  simp only [samplerTake, askSampler_withoutTelemetry, takeAnswer_withoutTelemetry, hex]
  split
  · rfl
  · split <;> rfl

section
variable {s t : State}

/-- The same pull gets the same answer. -/
theorem SameButTelemetry.exists_samplerTake (h : SameButTelemetry s t) (n : Nat) :
    ∃ xs st s' t', samplerTake n s = (xs, st, s') ∧ samplerTake n t = (xs, st, t') ∧ SameButTelemetry s' t' := by
  have hblank := congrArg (samplerTake n) h
  simp only [samplerTake_withoutTelemetry, Prod.mk.injEq] at hblank
  obtain ⟨hxs, hst, hstate⟩ := hblank
  exact ⟨_, _, _, (samplerTake n t).2.2, rfl, Prod.ext hxs.symm (Prod.ext hst.symm rfl), hstate⟩

end

theorem ignoresTelemetry_trainPull (n : Config → Nat) {onOk : List Real64 → State → State}
    (hok : ∀ xs, IgnoresTelemetry (onOk xs)) : IgnoresTelemetry fun s => trainPull (n s.cfg) onOk s := by
  intro s t h
  obtain ⟨xs, st, s', t', hs, ht, h'⟩ := h.exists_samplerTake (n s.cfg)
  simp only [← h.cfg]
  cases st with
  | ok => rw [trainPull_of_ok onOk hs, trainPull_of_ok onOk ht]; exact h'.map (hok xs)
  | short =>
    rw [trainPull_of_short onOk hs, trainPull_of_short onOk ht]; exact h'.map (ignoresTelemetry_raiseFault .underrun)
  | error =>
    rw [trainPull_of_error onOk hs, trainPull_of_error onOk ht]; exact h'.map (ignoresTelemetry_raiseFault .unexpected)

/-- The gate decides by the count that it is handed, not by TRAINERR. -/
theorem ignoresTelemetry_trainGate (hnew : List Real64) (errors : Nat) : IgnoresTelemetry (trainGate hnew errors) := by
  by_cases he : errors = 0
  · subst he
    exact .of_blank fun s => by rw [trainGate_zero, trainGate_zero]; rfl
  · exact .of_blank fun s => by rw [trainGate_of_ne_zero he, trainGate_of_ne_zero he]; rfl

theorem ignoresTelemetry_trainCapture (cap : List Real64) : IgnoresTelemetry (trainCapture cap) := by
  intro s t h
  rw [trainCapture, trainCapture, h.cfg]
  exact h.map (ignoresTelemetry_trainGate _ _)

theorem ignoresTelemetry_trainSession : IgnoresTelemetry trainSession :=
  ignoresTelemetry_trainPull (·.silenceLen) fun _ =>
    ignoresTelemetry_trainPull (fun c => c.eqlen * c.nsym + c.lookahead) fun cap =>
      ignoresTelemetry_trainPull (·.silencePost) fun _ => ignoresTelemetry_trainCapture cap

/-! ## Pushes, SYM and RUN -/

theorem askSink_withoutTelemetry (b : BitTuple) (s : State) :
    askSink b (withoutTelemetry s) = ((askSink b s).1, withoutTelemetry (askSink b s).2) := by
  cases h : s.sinkIn <;> simp [askSink, withoutTelemetry, h]

/-- A push that the sink accepts: OUT and BITCNT. -/
theorem ignoresTelemetry_pushed (b : BitTuple) : IgnoresTelemetry fun s =>
    { s with out := s.out ++ [b], bitcnt := s.bitcnt + BitVec.ofNat 64 s.cfg.bps } := .of_blank fun _ => rfl

section
variable {s t : State}

theorem SameButTelemetry.exists_askSink (h : SameButTelemetry s t) (b : BitTuple) :
    ∃ a s' t', askSink b s = (a, s') ∧ askSink b t = (a, t') ∧ SameButTelemetry s' t' := by
  have hblank := congrArg (askSink b) h
  simp only [askSink_withoutTelemetry, Prod.mk.injEq] at hblank
  obtain ⟨ha, hstate⟩ := hblank
  exact ⟨_, _, (askSink b t).2, rfl, Prod.ext ha.symm rfl, hstate⟩

theorem SameButTelemetry.exists_bitPush (h : SameButTelemetry s t) (b : BitTuple) :
    ∃ a s' t', bitPush b s = (a, s') ∧ bitPush b t = (a, t') ∧ SameButTelemetry s' t' := by
  obtain ⟨a, s', t', hs, ht, h'⟩ := h.exists_askSink b
  simp only [bitPush, hs, ht]
  cases a with
  | ok => exact ⟨_, _, _, rfl, rfl, h'.map (ignoresTelemetry_pushed b)⟩
  | error => exact ⟨_, _, _, rfl, rfl, h'⟩

/-- The same row of pushes gets the same answer. -/
theorem SameButTelemetry.exists_pushAll (h : SameButTelemetry s t) (bs : List BitTuple) :
    ∃ a s' t', pushAll bs s = (a, s') ∧ pushAll bs t = (a, t') ∧ SameButTelemetry s' t' := by
  induction bs generalizing s t with
  | nil => exact ⟨.ok, s, t, rfl, rfl, h⟩
  | cons b bs ih =>
    obtain ⟨a, s', t', hs, ht, h'⟩ := h.exists_bitPush b
    simp only [pushAll, hs, ht]
    cases a with
    | ok => exact ih h'
    | error => exact ⟨_, _, _, rfl, rfl, h'⟩

end

theorem ignoresTelemetry_pushBlock (zs : List Cplx) : IgnoresTelemetry (pushBlock zs) := by
  intro s t h
  obtain ⟨a, s', t', hs, ht, h'⟩ := h.exists_pushAll (zs.map (symbolTuple s.cfg))
  rw [h.cfg] at ht
  cases a with
  | ok =>
    rw [pushBlock_of_ok hs, pushBlock_of_ok ht]
    exact (h'.map ignoresTelemetry_countBlock).map ignoresTelemetry_driftTrigger
  | error =>
    rw [pushBlock_of_error hs, pushBlock_of_error ht]
    exact h'.map (ignoresTelemetry_raiseFault .unexpected)

theorem ignoresTelemetry_symStep : IgnoresTelemetry symStep := by
  intro s t h
  obtain ⟨w, st, s', t', hs, ht, h'⟩ := h.exists_samplerTake s.cfg.nsym
  rw [h.cfg] at ht
  cases st with
  | ok =>
    rw [symStep_of_ok hs, symStep_of_ok ht, h.cfg]
    exact (h'.map (ignoresTelemetry_accumulate _)).map (ignoresTelemetry_pushBlock _)
  | short =>
    rw [symStep_of_short hs, symStep_of_short ht]
    exact congrArg (fun u => { u with mode := .done }) h'
  | error =>
    rw [symStep_of_error hs, symStep_of_error ht]
    exact h'.map (ignoresTelemetry_raiseFault .unexpected)

/-- The loop's test reads the mode and the count, which is no telemetry (42_demodulator R169). -/
theorem ignoresTelemetry_runAfter (n i : BitVec 24) : IgnoresTelemetry (runAfter n i) :=
  .of_blank fun s => by rw [runAfter_eq, runAfter_eq]; rfl

theorem ignoresTelemetry_runTurn (n i : BitVec 24) : IgnoresTelemetry (runTurn n i) :=
  .ite (fun _ => Iff.rfl) (fun _ _ h => (h.map ignoresTelemetry_symStep).map (ignoresTelemetry_runAfter n i))
    (.of_blank fun _ => rfl)

/-! ## RDREG, the commands and the step -/

/-- Which register numbers are implemented depends on the filter's length only (20_memory R72). -/
theorem readReg_isSome_withoutTelemetry (r : BitVec 16) (s : State) :
    (readReg r (withoutTelemetry s)).isSome = (readReg r s).isSome := by
  by_cases hr : r.toNat < 0x1000
  · rw [readReg_of_lt _ hr, readReg_of_lt _ hr]
    unfold namedRegister
    split <;> rfl
  · rw [readReg, readReg, if_neg hr, if_neg hr]
    rfl

section
variable {s t : State}

/-- RDREG responds with telemetry, and the response is among what may differ. -/
theorem SameButTelemetry.exists_exec_rdreg (h : SameButTelemetry s t) (r : BitVec 16) :
    ∃ s' t', exec (.rdreg r) s = .next s' ∧ exec (.rdreg r) t = .next t' ∧ SameButTelemetry s' t' := by
  have hsome : (readReg r s).isSome = (readReg r t).isSome := by
    rw [← readReg_isSome_withoutTelemetry r s, ← readReg_isSome_withoutTelemetry r t, h]
  cases hs : readReg r s with
  | some v =>
    obtain ⟨v', ht⟩ := Option.isSome_iff_exists.1 (by rw [← hsome, hs]; rfl : (readReg r t).isSome = true)
    exact ⟨_, _, exec_rdreg_of_implemented hs, exec_rdreg_of_implemented ht, h.respond v v'⟩
  | none =>
    have ht : readReg r t = none := by simpa [hs] using hsome
    exact ⟨_, _, exec_rdreg_of_unimplemented hs, exec_rdreg_of_unimplemented ht,
      (h.respond 0 0).map ignoresTelemetry_illegalCommand⟩

/-- No command feeds telemetry back. -/
theorem SameButTelemetry.exists_exec (h : SameButTelemetry s t) (i : Instr) :
    ∃ s' t', exec i s = .next s' ∧ exec i t = .next t' ∧ SameButTelemetry s' t' := by
  cases i with
  | nop => exact ⟨_, _, rfl, rfl, h⟩
  | rdreg r => exact h.exists_exec_rdreg r
  | fadj delta =>
    cases hfinite : isFinite delta with
    | false =>
      exact ⟨_, _, exec_fadj_of_not_finite hfinite s, exec_fadj_of_not_finite hfinite t,
        h.map ignoresTelemetry_illegalCommand⟩
    | true =>
      simp only [exec, execFadj, hfinite, if_true]
      exact ⟨_, _, rfl, rfl, h.map (ignoresTelemetry_inMode _ (ignoresTelemetry_adjustFreq delta))⟩
  | train => exact ⟨_, _, rfl, rfl, h.map (ignoresTelemetry_inMode _ ignoresTelemetry_trainSession)⟩
  | sym => exact ⟨_, _, rfl, rfl, h.map (ignoresTelemetry_inMode _ ignoresTelemetry_symStep)⟩
  | run n => exact ⟨_, _, rfl, rfl, h.map (ignoresTelemetry_inMode _ (ignoresTelemetry_runTurn n 0))⟩
  | abort c =>
    cases hcause : hostCause c with
    | none =>
      exact ⟨_, _, exec_abort_of_hostCause_eq_none hcause s, exec_abort_of_hostCause_eq_none hcause t,
        h.map ignoresTelemetry_illegalCommand⟩
    | some cause =>
      simp only [exec, execAbort, hcause]
      exact ⟨_, _, rfl, rfl, h.map (ignoresTelemetry_inMode _ (ignoresTelemetry_raiseFault cause))⟩
  | reset => exact ⟨_, _, rfl, rfl, h.map ignoresTelemetry_sessionReset⟩

theorem SameButTelemetry.withCmds (h : SameButTelemetry s t) (ws : List Word) :
    SameButTelemetry { s with cmds := ws } { t with cmds := ws } :=
  h.map (f := fun u => { u with cmds := ws }) (.of_blank fun _ => rfl)

theorem step_of_resetIn (hconfig : configOk s.cfg = true) (hr : s.resetIn = true) :
    step s = .next (resetInput s) := by
  simp only [step, hconfig, hr, Bool.true_eq_false, if_false, if_true]

/-- Both blocks take the same next step: what it is rests on the configuration, the reset input, the RUN in progress and
the pending words. -/
theorem SameButTelemetry.exists_step {s' : State} (h : SameButTelemetry s t) (hs : step s = .next s') :
    ∃ t', step t = .next t' ∧ SameButTelemetry s' t' := by
  obtain ⟨hconfig, ⟨hr, rfl⟩ | ⟨hr, r, hrun, rfl⟩ | ⟨hr, hrun, i, rest, hd, he⟩ | ⟨hr, hrun, why, rest, hd, rfl⟩ |
    ⟨hr, hrun, hd, rfl⟩⟩ := step_cases hs
  all_goals rw [h.cfg] at hconfig; rw [h.resetIn] at hr
  · exact ⟨_, step_of_resetIn hconfig hr, h.map ignoresTelemetry_resetInput⟩
  · rw [h.run] at hrun
    exact ⟨_, Ready.step_of_running ⟨hconfig, hr⟩ hrun, h.map (ignoresTelemetry_runTurn r.n r.i)⟩
  · rw [h.run] at hrun
    rw [h.cmds] at hd
    obtain ⟨s'', t', hes, het, h'⟩ := (h.withCmds rest).exists_exec i
    obtain rfl : s'' = s' := Host.Outcome.next.inj (hes.symm.trans he)
    exact ⟨t', (stepRunsDecodedCommand t i rest hconfig hr hrun hd).trans het, h'⟩
  · rw [h.run] at hrun
    rw [h.cmds] at hd
    have hstep := step_of_illegal hconfig hr hrun hd
    exact ⟨_, hstep.trans (congrArg _ (executeIllegal_eq why { t with cmds := rest }).symm),
      (h.withCmds rest).map (ignoresTelemetry_executeIllegal why)⟩
  · rw [h.run] at hrun
    rw [h.cmds] at hd
    exact ⟨t, Ready.step_of_waiting ⟨hconfig, hr⟩ hrun hd, h⟩

end

/-- Settles O59: the step from the one state has a step from the other to match it, and a step is a function. -/
theorem telemetryIsNotFeedback : Obligations.TelemetryIsNotFeedback := by
  intro s s' t t' h hs ht
  obtain ⟨u, hu, hsame⟩ := SameButTelemetry.exists_step (s := s) (t := s') h hs
  obtain rfl : u = t' := Host.Outcome.next.inj (hu.symm.trans ht)
  exact hsame

end Sys2Proof.Machine
end

section
/-! The mean phase (43_drift_loop R185, R186): the running sum of the phases and its count, which is converted exactly
(44_kernels R207). -/

namespace Sys2Proof.Machine

/-! ## Conversion of a count (44_kernels R207 (f)) -/

/-- A number whose significand fits 53 bits is kept by the rounding: the places dropped are among its zero places. -/
theorem roundUnits_of_significand (neg : Bool) {n e : Nat} (hn : n < 2 ^ 53) (he : e ≤ 2045) :
    ∃ k m, roundUnits neg (n <<< e) 1 = withSign neg (k * 2 ^ 52 + m) ∧ k * 2 ^ 52 + m < 2047 * 2 ^ 52 ∧
      m ≤ 2 ^ 53 ∧ (0 < k → 2 ^ 52 ≤ m) ∧ m * 2 ^ k = n * 2 ^ e := by
  rw [Nat.shiftLeft_eq]
  obtain ⟨k, m, hround, hm, hfull, -, hle, hge, -⟩ := roundUnits_spec neg (n * 2 ^ e) 1 Nat.one_pos
  rw [Nat.one_mul] at hfull hle hge
  have hk : k ≤ e := by
    refine Nat.le_of_not_lt fun hlt => ?_
    obtain ⟨-, hnum⟩ := hfull (Nat.zero_lt_of_lt hlt)
    have hpow : 2 ^ (e + 1) ≤ 2 ^ k := Nat.pow_le_pow_right (by decide) hlt
    have hsignificand : n * 2 ^ e < 2 ^ 53 * 2 ^ e := Nat.mul_lt_mul_of_pos_right hn (Nat.two_pow_pos e)
    rw [Nat.pow_succ] at hpow
    omega
  obtain ⟨d, rfl⟩ := Nat.exists_eq_add_of_le hk
  have hnum : n * 2 ^ (k + d) = n * 2 ^ d * 2 ^ k := by rw [Nat.pow_add, Nat.mul_comm (2 ^ k), Nat.mul_assoc]
  have hexact : m = n * 2 ^ d := by
    have hpos : 0 < 2 ^ k := Nat.two_pow_pos k
    rw [hnum] at hle hge
    have hbelow : 2 * m ≤ 2 * (n * 2 ^ d) + 1 := by
      refine Nat.le_of_mul_le_mul_right ?_ hpos
      rwa [Nat.add_mul, Nat.one_mul, Nat.mul_assoc, Nat.mul_assoc 2]
    have habove : 2 * (n * 2 ^ d) ≤ 2 * m + 1 := by
      refine Nat.le_of_mul_le_mul_right ?_ hpos
      rwa [Nat.add_mul, Nat.one_mul, Nat.mul_assoc 2 m, Nat.mul_assoc 2]
    omega
  have hbelow : k * 2 ^ 52 + m < 2047 * 2 ^ 52 := by
    rcases Nat.eq_zero_or_pos d with rfl | hd
    · rw [Nat.pow_zero, Nat.mul_one] at hexact
      omega
    · omega
  refine ⟨k, m, ?_, hbelow, hm, fun h => (hfull h).1, by rw [hnum, hexact]⟩
  rw [hround, Nat.min_eq_left (Nat.le_of_lt hbelow)]

/-- So the rounding is finite and has the number's own value. -/
theorem roundUnits_exact {n e : Nat} (hn : n < 2 ^ 53) (he : e ≤ 2045) :
    isFinite (roundUnits false (n <<< e) 1) = true ∧ unitsOf (roundUnits false (n <<< e) 1) = n * 2 ^ e := by
  obtain ⟨k, m, hround, hbelow, hm, hfull, hvalue⟩ := roundUnits_of_significand false hn he
  have hlow : k * 2 ^ 52 + m < 2 ^ 63 := Nat.lt_trans hbelow (by decide)
  have hfield : (k * 2 ^ 52 + m) / 2 ^ 52 ≠ 2047 :=
    Nat.ne_of_lt ((Nat.div_lt_iff_lt_mul (Nat.two_pow_pos 52)).2 hbelow)
  rw [hround]
  refine ⟨(isFinite_withSign false _ hlow).2 hfield, ?_⟩
  rw [unitsOf, isNegative_withSign false _ hlow, if_neg Bool.false_ne_true,
    magnitude_withSign false k m hbelow hm hfull, hvalue, Int.natCast_mul, Int.natCast_pow]
  rfl

/-- A count below 2^53 is converted exactly. -/
theorem realOfNat_exact {n : Nat} (h : n < 2 ^ 53) :
    isFinite (realOfNat n) = true ∧ unitsOf (realOfNat n) = n * 2 ^ 1074 :=
  roundUnits_exact h (by decide)

/-! ## The running sum (43_drift_loop R185, R186) -/

theorem meanPhase_of_ne_nil (c : Config) {l : List Cplx} (h : l ≠ []) :
    meanPhase c l = numDiv c (phaseSum c l) (realOfNat l.length) :=
  if_neg (mt List.length_eq_zero_iff.1 h)

/-- The sum of the ratios so far is where the sum of a further block starts. -/
theorem phaseSum_append (c : Config) (l block : List Cplx) :
    phaseSum c (l ++ block) = block.foldl (fun sum r => numAdd c sum (phaseOf c r)) (phaseSum c l) :=
  List.foldl_append

/-- Settles O46: the sum is a left fold, and a count below 2^53 loses no bit in its conversion. -/
theorem meanPhaseIsRunningSum : Obligations.MeanPhaseIsRunningSum :=
  ⟨fun c l block e => ⟨rfl, meanPhase_of_ne_nil c, rfl, phaseSum_append c l [e], phaseSum_append c l block⟩,
    fun _ => realOfNat_exact⟩

end Sys2Proof.Machine
end

section
/-! The order of the encodings (00_scope R13, 44_kernels R204): the 63 bits below the sign order the magnitudes, so
that `<` and `=` of reals that are no NaN are those of their values. -/

namespace Sys2Proof.Machine

/-! ## Magnitudes -/

theorem expField_eq_div (x : Real64) : expField x = x.toNat % 2 ^ 63 / 2 ^ 52 := by unfold expField; omega

theorem fracField_eq_mod (x : Real64) : fracField x = x.toNat % 2 ^ 63 % 2 ^ 52 := by unfold fracField; omega

theorem fracField_lt (x : Real64) : fracField x < 2 ^ 52 := Nat.mod_lt _ (by decide)

/-- A magnitude is below the least one of the next exponent field. -/
theorem magnitude_lt_of_expField (x : Real64) : magnitude x < 2 ^ 52 * 2 ^ expField x := by
  have hfrac := fracField_lt x
  unfold magnitude
  split
  case isTrue h => rw [h]; omega
  case isFalse h =>
    obtain ⟨e, he⟩ := Nat.exists_eq_succ_of_ne_zero h
    rw [Nat.shiftLeft_eq, he, Nat.succ_eq_add_one, Nat.add_sub_cancel, Nat.pow_succ _ e, Nat.mul_comm (2 ^ e),
      ← Nat.mul_assoc]
    exact Nat.mul_lt_mul_of_pos_right (by omega) (Nat.two_pow_pos e)

theorem le_magnitude_of_expField_lt {x : Real64} {e : Nat} (h : e < expField x) : 2 ^ 52 * 2 ^ e ≤ magnitude x := by
  rw [magnitude, if_neg (Nat.ne_zero_of_lt h), Nat.shiftLeft_eq]
  exact Nat.mul_le_mul (Nat.le_add_right _ _) (Nat.pow_le_pow_right (by decide) (by omega))

theorem magnitude_lt_of_low_lt {x y : Real64} (h : x.toNat % 2 ^ 63 < y.toNat % 2 ^ 63) :
    magnitude x < magnitude y := by
  have hfields : expField x < expField y ∨ expField x = expField y ∧ fracField x < fracField y := by
    simp only [expField_eq_div, fracField_eq_mod]
    omega
  rcases hfields with hexp | ⟨hexp, hfrac⟩
  · exact Nat.lt_of_lt_of_le (magnitude_lt_of_expField x) (le_magnitude_of_expField_lt hexp)
  · unfold magnitude
    rw [hexp]
    split
    · exact hfrac
    · simp only [Nat.shiftLeft_eq]
      exact Nat.mul_lt_mul_of_pos_right (by omega) (Nat.two_pow_pos _)

/-- The bits below the sign order the magnitudes, the infinity's included. -/
theorem magnitude_lt_iff {x y : Real64} : magnitude x < magnitude y ↔ x.toNat % 2 ^ 63 < y.toNat % 2 ^ 63 := by
  refine ⟨fun h => Nat.lt_of_not_le fun hle => ?_, magnitude_lt_of_low_lt⟩
  rcases Nat.lt_or_eq_of_le hle with hlt | heq
  · exact Nat.lt_asymm h (magnitude_lt_of_low_lt hlt)
  · refine Nat.ne_of_lt h ?_
    simp only [magnitude, expField_eq_div, fracField_eq_mod, heq]

theorem magnitude_le_iff {x y : Real64} : magnitude x ≤ magnitude y ↔ x.toNat % 2 ^ 63 ≤ y.toNat % 2 ^ 63 := by
  rw [← Nat.not_lt, magnitude_lt_iff, Nat.not_lt]

theorem isZero_iff {x : Real64} : isZero x = true ↔ magnitude x = 0 := by
  have h : magnitude x ≤ magnitude (0 : Real64) ↔ x.toNat % 2 ^ 63 ≤ 0 := magnitude_le_iff
  rw [show magnitude (0 : Real64) = 0 from rfl] at h
  rw [isZero, beq_iff_eq, ← Nat.le_zero, ← h, Nat.le_zero]

theorem isFinite_iff {x : Real64} : isFinite x = true ↔ x.toNat % 2 ^ 63 < 2047 * 2 ^ 52 := by
  rw [isFinite, bne_iff_ne, expField_eq_div]
  omega

theorem isFinite_of_magnitude_le {x y : Real64} (hy : isFinite y = true) (h : magnitude x ≤ magnitude y) :
    isFinite x = true :=
  isFinite_iff.2 (Nat.lt_of_le_of_lt (magnitude_le_iff.1 h) (isFinite_iff.1 hy))

/-- A real is its sign and its magnitude. -/
theorem eq_of_isNegative_of_magnitude {x y : Real64} (hneg : isNegative x = isNegative y)
    (h : magnitude x = magnitude y) : x = y := by
  have hle := magnitude_le_iff.1 (Nat.le_of_eq h)
  have hge := magnitude_le_iff.1 (Nat.le_of_eq h.symm)
  simp only [isNegative, BitVec.msb_eq_decide, decide_eq_decide] at hneg
  apply BitVec.eq_of_toNat_eq
  omega

/-! ## Values -/

/-- What is neither a NaN nor an infinity is below an infinity in magnitude. -/
theorem magnitude_lt_of_isInf {x y : Real64} (hx : isNaN x = false) (hxi : isInf x = false) (hy : isInf y = true) :
    magnitude x < magnitude y := by
  refine magnitude_lt_iff.2 ?_
  simp only [isNaN, isInf, Bool.and_eq_false_iff, Bool.and_eq_true, beq_iff_eq, beq_eq_false_iff_ne, bne_eq_false_iff_eq,
    expField_eq_div, fracField_eq_mod] at *
  omega

theorem magnitude_eq_of_isInf {x y : Real64} (hx : isInf x = true) (hy : isInf y = true) :
    magnitude x = magnitude y := by
  simp only [isInf, Bool.and_eq_true, beq_iff_eq] at hx hy
  simp only [magnitude, hx, hy]

theorem unitsOf_of_not_isNegative {x : Real64} (h : isNegative x = false) : unitsOf x = magnitude x := by
  rw [unitsOf, h, if_neg Bool.false_ne_true]

/-- Where the magnitudes differ, the sign of the greater one decides. -/
theorem unitsOf_lt_iff_of_lt {a b : Real64} (h : magnitude a < magnitude b) :
    unitsOf a < unitsOf b ↔ isNegative b = false := by
  cases hb : isNegative b <;> cases ha : isNegative a <;> simp [unitsOf, ha, hb] <;> omega

theorem unitsOf_lt_iff_of_gt {a b : Real64} (h : magnitude b < magnitude a) :
    unitsOf a < unitsOf b ↔ isNegative a = true := by
  cases hb : isNegative b <;> cases ha : isNegative a <;> simp [unitsOf, ha, hb] <;> omega

/-- `<` compares the values, where an infinity's is the one that its fields spell. -/
theorem realLt_eq_decide {a b : Real64} (ha : isNaN a = false) (hb : isNaN b = false) :
    realLt a b = decide (unitsOf a < unitsOf b) := by
  simp only [realLt, ha, hb, Bool.or_self, Bool.false_eq_true, if_false]
  rcases hai : isInf a with _ | _ <;> rcases hbi : isInf b with _ | _
  · rfl
  · simp [unitsOf_lt_iff_of_lt (magnitude_lt_of_isInf ha hai hbi)]
  · simp [unitsOf_lt_iff_of_gt (magnitude_lt_of_isInf hb hbi hai)]
  · have heq := magnitude_eq_of_isInf hai hbi
    have hpos := magnitude_lt_of_isInf (x := 0) (by decide) (by decide) hai
    cases hna : isNegative a <;> cases hnb : isNegative b <;> simp [unitsOf, hna, hnb] <;> omega

theorem realLt_iff {a b : Real64} (ha : isNaN a = false) (hb : isNaN b = false) :
    realLt a b = true ↔ unitsOf a < unitsOf b := by
  rw [realLt_eq_decide ha hb, decide_eq_true_iff]

theorem not_nan_of_realLt {a b : Real64} (h : realLt a b = true) : isNaN a = false ∧ isNaN b = false := by
  refine ⟨Bool.of_not_eq_true fun ha => ?_, Bool.of_not_eq_true fun hb => ?_⟩
  · rw [realLt_nan (.inl ha)] at h
    contradiction
  · rw [realLt_nan (.inr hb)] at h
    contradiction

theorem realLt_asymm {a b : Real64} (h : realLt a b = true) : realLt b a = false := by
  obtain ⟨ha, hb⟩ := not_nan_of_realLt h
  rw [realLt_iff ha hb] at h
  rw [realLt_eq_decide hb ha, decide_eq_false_iff_not]
  omega

theorem realLt_irrefl (a : Real64) : realLt a a = false :=
  Bool.of_not_eq_true fun h => absurd h (by rw [realLt_asymm h]; exact Bool.false_ne_true)

/-- What is below a number is below every real that is not below that number. -/
theorem realLt_of_lt_of_not_lt {a b x : Real64} (hx : isNaN x = false) (hab : realLt a b = true)
    (hxb : realLt x b = false) : realLt a x = true := by
  obtain ⟨ha, hb⟩ := not_nan_of_realLt hab
  rw [realLt_iff ha hb] at hab
  rw [realLt_eq_decide hx hb, decide_eq_false_iff_not] at hxb
  rw [realLt_iff ha hx]
  omega

/-- Equality of numbers is that of the values, the two zeros being equal. -/
theorem realEq_eq_decide {a b : Real64} (ha : isNaN a = false) (hb : isNaN b = false) :
    realEq a b = decide (unitsOf a = unitsOf b) := by
  have hiff : a = b ∨ isZero a = true ∧ isZero b = true ↔ unitsOf a = unitsOf b := by
    constructor
    · rintro (rfl | ⟨hza, hzb⟩)
      · rfl
      · rw [isZero_iff] at hza hzb
        simp [unitsOf, hza, hzb]
    · intro h
      have hmag : magnitude a = magnitude b := by
        simpa only [natAbs_unitsOf] using congrArg Int.natAbs h
      rcases Nat.eq_zero_or_pos (magnitude a) with hzero | hpos
      · exact .inr ⟨isZero_iff.2 hzero, isZero_iff.2 (hmag ▸ hzero)⟩
      · refine .inl (eq_of_isNegative_of_magnitude ?_ hmag)
        cases hna : isNegative a <;> cases hnb : isNegative b <;> simp [unitsOf, hna, hnb] at h ⊢ <;> omega
  rw [Bool.eq_iff_iff, decide_eq_true_iff, ← hiff]
  simp [realEq, ha, hb]

end Sys2Proof.Machine
end

section
/-! Rounding to nearest, ties to even (44_kernels R204), and the operations of the reference arithmetic on finite
reals. -/

namespace Sys2Proof.Machine

/-! ## The grid of the finite reals -/

theorem gridStep_pos {den : Nat} (hden : 0 < den) (k : Nat) : 0 < den * 2 ^ k := Nat.mul_pos hden (Nat.two_pow_pos k)

/-- Fewer places dropped, a smaller step. -/
theorem gridStep_le (den : Nat) {j k : Nat} (h : j ≤ k) : den * 2 ^ j ≤ den * 2 ^ k :=
  Nat.mul_le_mul_left den (Nat.pow_le_pow_right (by decide) h)

/-- At any number `k` of dropped places a finite real lies on the grid of step `2^k`, or below all full
significands. -/
theorem magnitude_on_grid {x : Real64} (h : isFinite x = true) (k : Nat) :
    (∃ n, magnitude x = n * 2 ^ k) ∨ 0 < k ∧ magnitude x < 2 ^ 52 * 2 ^ k := by
  obtain ⟨j, m, hx, hm, -, -⟩ := magnitude_cases x h
  rcases Nat.lt_or_ge j k with hlt | hge
  · refine .inr ⟨Nat.zero_lt_of_lt hlt, ?_⟩
    calc magnitude x = m * 2 ^ j := hx
      _ < 2 ^ 53 * 2 ^ j := Nat.mul_lt_mul_of_pos_right hm (Nat.two_pow_pos j)
      _ = 2 ^ 52 * 2 ^ (j + 1) := by rw [Nat.pow_succ _ j]; omega
      _ ≤ 2 ^ 52 * 2 ^ k := gridStep_le _ hlt
  · obtain ⟨i, rfl⟩ := Nat.exists_eq_add_of_le hge
    exact .inl ⟨m * 2 ^ i, by rw [hx, Nat.pow_add]; ac_rfl⟩

/-- The distance of `a` from the number `n`, as the statement of rounding writes it. -/
def gap (a n : Nat) : Nat := ((a : Nat) - (n : Int)).natAbs

/-- A number of the grid within half a step of `num` is the nearest one of the grid, and the other one as near lies
half a step away too. -/
theorem gap_le_of_grid {step num m n : Nat} (hle : 2 * (m * step) ≤ 2 * num + step)
    (hge : 2 * num ≤ 2 * (m * step) + step) :
    gap (m * step) num ≤ gap (n * step) num ∧
    (n ≠ m → gap (n * step) num = gap (m * step) num →
      2 * (m * step) = 2 * num + step ∨ 2 * num = 2 * (m * step) + step) := by
  rcases Nat.lt_trichotomy n m with hlt | rfl | hlt
  · have hstep := Nat.mul_le_mul_right step (show n + 1 ≤ m from hlt)
    rw [Nat.add_mul, Nat.one_mul] at hstep
    unfold gap
    omega
  · exact ⟨Nat.le_refl _, fun h => absurd rfl h⟩
  · have hstep := Nat.mul_le_mul_right step (show m + 1 ≤ n from hlt)
    rw [Nat.add_mul, Nat.one_mul] at hstep
    unfold gap
    omega

/-! ## What a rounding is -/

/-- `m` is the significand nearest to `num / den` with `k` places dropped, none below the normal range, and the even
one on a tie. -/
structure IsRounding (num den k m : Nat) : Prop where
  m_le : m ≤ 2 ^ 53
  full : 0 < k → 2 ^ 52 ≤ m ∧ 2 ^ 52 * (den * 2 ^ k) ≤ num
  num_lt : num < 2 ^ 53 * (den * 2 ^ k)
  le : 2 * (m * (den * 2 ^ k)) ≤ 2 * num + den * 2 ^ k
  ge : 2 * num ≤ 2 * (m * (den * 2 ^ k)) + den * 2 ^ k
  even : 2 * (m * (den * 2 ^ k)) = 2 * num + den * 2 ^ k ∨ 2 * num = 2 * (m * (den * 2 ^ k)) + den * 2 ^ k →
    m % 2 = 0

theorem roundUnits_isRounding (neg : Bool) (num : Nat) {den : Nat} (hden : 0 < den) :
    ∃ k m, roundUnits neg num den = withSign neg (min (k * 2 ^ 52 + m) (2047 * 2 ^ 52)) ∧ IsRounding num den k m := by
  obtain ⟨k, m, hround, hm, hfull, hlt, hle, hge, heven⟩ := roundUnits_spec neg num den hden
  exact ⟨k, m, hround, hm, hfull, hlt, hle, hge, heven⟩

/-- A significand overflows from the midpoint below the next power of two on: there the tie goes to the even one. -/
theorem IsRounding.significand_lt_iff {num den e m : Nat} (hden : 0 < den) (h : IsRounding num den (e + 1) m) :
    m < 2 ^ 53 ↔ num < (2 ^ 54 - 1) * (den * 2 ^ e) := by
  obtain ⟨hm, -, -, hle, hge, heven⟩ := h
  have hpos := gridStep_pos hden e
  rw [Nat.pow_succ _ e, ← Nat.mul_assoc den] at hle hge heven
  generalize den * 2 ^ e = half at *
  rcases Nat.lt_or_ge m (2 ^ 53 - 1) with hlt | hge'
  · have hstep := Nat.mul_le_mul_right (half * 2) (show m + 1 ≤ 2 ^ 53 - 1 from hlt)
    rw [Nat.add_mul] at hstep
    omega
  · rcases (show m = 2 ^ 53 - 1 ∨ m = 2 ^ 53 by omega) with rfl | rfl <;> omega

/-- From that midpoint on, the encoding `k·2^52 + m` reaches the next binade's. -/
theorem IsRounding.encoding_lt_iff {num den k m : Nat} (hden : 0 < den) (h : IsRounding num den k m) (e : Nat) :
    k * 2 ^ 52 + m < (e + 3) * 2 ^ 52 ↔ num < (2 ^ 54 - 1) * 2 ^ e * den := by
  rw [Nat.mul_assoc, Nat.mul_comm (2 ^ e)]
  have hpos := gridStep_pos hden e
  rcases Nat.lt_trichotomy k (e + 1) with hlt | rfl | hgt
  · have hstep := gridStep_le den (Nat.le_of_lt_succ hlt)
    have hm := h.m_le
    have hnum := h.num_lt
    generalize den * 2 ^ e = half at *
    omega
  · rw [← IsRounding.significand_lt_iff hden h]
    omega
  · have hstep := gridStep_le den (show e + 2 ≤ k from hgt)
    obtain ⟨hm, hnum⟩ := h.full (Nat.zero_lt_of_lt hgt)
    rw [Nat.pow_add, ← Nat.mul_assoc den] at hstep
    generalize den * 2 ^ e = half at *
    omega

/-- No finite real is nearer to `num / den`, and another one as near leaves the even significand. -/
theorem IsRounding.nearest {num den k m : Nat} (hden : 0 < den) (h : IsRounding num den k m) {x : Real64}
    (hx : isFinite x = true) :
    gap (m * 2 ^ k * den) num ≤ gap (magnitude x * den) num ∧
    (magnitude x ≠ m * 2 ^ k → gap (magnitude x * den) num = gap (m * 2 ^ k * den) num → m % 2 = 0) := by
  have hgrid (n : Nat) : n * 2 ^ k * den = n * (den * 2 ^ k) := by ac_rfl
  rcases magnitude_on_grid hx k with ⟨n, hn⟩ | ⟨hk, hlt⟩
  · obtain ⟨hnearest, htie⟩ := gap_le_of_grid (n := n) h.le h.ge
    rw [hn, hgrid, hgrid]
    exact ⟨hnearest, fun hne heq => h.even (htie (fun hnm => hne (by rw [hnm])) heq)⟩
  · obtain ⟨-, hfull⟩ := h.full hk
    obtain ⟨hnearest, -⟩ := gap_le_of_grid (n := 2 ^ 52) h.le h.ge
    have hbelow : magnitude x * den < 2 ^ 52 * (den * 2 ^ k) := by
      rw [← hgrid]
      exact Nat.mul_lt_mul_of_pos_right hlt hden
    rw [hgrid]
    unfold gap at *
    omega

/-! ## The rounding of `± num / den` -/

section
variable (neg : Bool) (num : Nat) {den : Nat} (hden : 0 < den)
include hden

theorem isNegative_roundUnits : isNegative (roundUnits neg num den) = neg := by
  obtain ⟨k, m, hround, -⟩ := roundUnits_isRounding neg num hden
  rw [hround]
  exact isNegative_withSign neg _ (Nat.lt_of_le_of_lt (Nat.min_le_right _ _) (by decide))

/-- A finite rounding is a rounded significand; any other is the infinity. -/
theorem roundUnits_cases :
    (num < (2 ^ 54 - 1) * 2 ^ 2044 * den ∧ isFinite (roundUnits neg num den) = true ∧
      ∃ k m, IsRounding num den k m ∧ magnitude (roundUnits neg num den) = m * 2 ^ k ∧
        fracField (roundUnits neg num den) % 2 = m % 2) ∨
    ((2 ^ 54 - 1) * 2 ^ 2044 * den ≤ num ∧ roundUnits neg num den = realInf neg) := by
  obtain ⟨k, m, hround, h⟩ := roundUnits_isRounding neg num hden
  have hiff := IsRounding.encoding_lt_iff hden h 2044
  rw [hround]
  rcases Nat.lt_or_ge (k * 2 ^ 52 + m) (2047 * 2 ^ 52) with hlt | hge
  · have hlow : k * 2 ^ 52 + m < 2 ^ 63 := Nat.lt_trans hlt (by decide)
    rw [Nat.min_eq_left (Nat.le_of_lt hlt)]
    refine .inl ⟨hiff.1 hlt, (isFinite_withSign neg _ hlow).2 (by omega), k, m, h,
      magnitude_withSign neg k m hlt h.m_le fun hk => (h.full hk).1, ?_⟩
    rw [fracField_withSign neg _ hlow]
    omega
  · rw [Nat.min_eq_right hge]
    exact .inr ⟨Nat.le_of_not_lt fun hnum => Nat.not_lt_of_le hge (hiff.2 hnum), rfl⟩

end

theorem not_isFinite_realInf (neg : Bool) : isFinite (realInf neg) = false := by
  cases neg <;> decide

/-- No finite real is nearer to `num / den` than a finite rounding, and where another is as near the last bit of the
rounding's significand is 0. -/
theorem roundUnits_nearest {neg : Bool} {num den : Nat} (hden : 0 < den)
    (hfinite : isFinite (roundUnits neg num den) = true) {x : Real64} (hx : isFinite x = true) :
    gap (magnitude (roundUnits neg num den) * den) num ≤ gap (magnitude x * den) num ∧
    (magnitude x ≠ magnitude (roundUnits neg num den) →
      gap (magnitude x * den) num = gap (magnitude (roundUnits neg num den) * den) num →
      fracField (roundUnits neg num den) % 2 = 0) := by
  rcases roundUnits_cases neg num hden with ⟨-, -, k, m, h, hmag, hfrac⟩ | ⟨-, hinf⟩
  · rw [hmag, hfrac]
    exact IsRounding.nearest hden h hx
  · rw [hinf, not_isFinite_realInf] at hfinite
    contradiction

/-- Settles O48: the encoding is the nearest significand's, and a finite real lies on its grid or below all of it. -/
theorem roundingIsToNearest : Obligations.RoundingIsToNearest := by
  intro neg num den hden
  refine ⟨isNegative_roundUnits neg num hden, fun hlt => ?below, fun hge => ?above,
    fun hfinite x hx => roundUnits_nearest hden hfinite hx⟩
  case below =>
    rcases roundUnits_cases neg num hden with ⟨-, hfinite, -⟩ | ⟨hge, -⟩
    · exact hfinite
    · omega
  case above =>
    rcases roundUnits_cases neg num hden with ⟨hlt, -⟩ | ⟨-, hinf⟩
    · omega
    · rw [hinf]
      cases neg <;> rfl

/-- The largest finite real is below the midpoint from which rounding overflows. -/
theorem magnitude_lt_of_isFinite {x : Real64} (h : isFinite x = true) : magnitude x < (2 ^ 54 - 1) * 2 ^ 2044 := by
  have hlast : magnitude (0x7FEFFFFFFFFFFFFF : Real64) < (2 ^ 54 - 1) * 2 ^ 2044 := by decide +kernel
  have hlow : (0x7FEFFFFFFFFFFFFF : Real64).toNat % 2 ^ 63 = 2047 * 2 ^ 52 - 1 := by decide
  refine Nat.lt_of_le_of_lt (magnitude_le_iff.2 ?_) hlast
  rw [hlow]
  exact Nat.le_sub_one_of_lt (isFinite_iff.1 h)

/-- Rounding does not go past a finite real. -/
theorem roundUnits_le (neg : Bool) {num den : Nat} (hden : 0 < den) {x : Real64} (hx : isFinite x = true)
    (h : num ≤ magnitude x * den) :
    isFinite (roundUnits neg num den) = true ∧ magnitude (roundUnits neg num den) ≤ magnitude x := by
  have hfinite : isFinite (roundUnits neg num den) = true := by
    have hlast := Nat.mul_lt_mul_of_pos_right (magnitude_lt_of_isFinite hx) hden
    rcases roundUnits_cases neg num hden with ⟨-, hfinite, -⟩ | ⟨hge, -⟩
    · exact hfinite
    · exact absurd (Nat.le_trans hge h) (Nat.not_le_of_lt hlast)
  refine ⟨hfinite, Nat.le_of_not_lt fun hlt => ?_⟩
  obtain ⟨hnearest, -⟩ := roundUnits_nearest hden hfinite hx
  have hpast := Nat.mul_lt_mul_of_pos_right hlt hden
  unfold gap at hnearest
  omega

theorem roundUnits_magnitude {x : Real64} (hx : isFinite x = true) :
    roundUnits (isNegative x) (magnitude x) 1 = x := by
  obtain ⟨hfinite, -⟩ := roundUnits_le (isNegative x) Nat.one_pos hx (Nat.le_of_eq (Nat.mul_one _).symm)
  refine eq_of_isNegative_of_magnitude (isNegative_roundUnits _ _ Nat.one_pos) ?_
  obtain ⟨hnearest, -⟩ := roundUnits_nearest Nat.one_pos hfinite hx
  unfold gap at hnearest
  omega

/-! ## The operations on finite reals -/

/-- The shift of a number of units, its power in the spelling of the statements. -/
theorem shiftLeft_eq_mul_two_pow (n e : Nat) : n <<< e = n * 2 ^ e := Nat.shiftLeft_eq n e

theorem one_shiftLeft_eq_two_pow (e : Nat) : 1 <<< e = 2 ^ e := by rw [shiftLeft_eq_mul_two_pow, Nat.one_mul]

section
variable {x y : Real64} (hx : isFinite x = true) (hy : isFinite y = true)
include hx hy

theorem realAdd_of_isFinite : realAdd x y =
    if unitsOf x + unitsOf y = 0 then realZero (isNegative x && isNegative y)
    else roundUnits (decide (unitsOf x + unitsOf y < 0)) (unitsOf x + unitsOf y).natAbs 1 := by
  simp [realAdd, sumOf, not_nan_inf_of_isFinite hx, not_nan_inf_of_isFinite hy]

theorem realSub_of_isFinite : realSub x y =
    if unitsOf x - unitsOf y = 0 then realZero (isNegative x && !isNegative y)
    else roundUnits (decide (unitsOf x - unitsOf y < 0)) (unitsOf x - unitsOf y).natAbs 1 := by
  have hny : isFinite (realNeg y) = true := by rw [isFinite_realNeg, hy]
  simp [realSub, sumOf, not_nan_inf_of_isFinite hx, not_nan_inf_of_isFinite hy, not_nan_inf_of_isFinite hny,
    Int.sub_eq_add_neg]

theorem realMul_of_isFinite : realMul x y =
    roundUnits (isNegative x != isNegative y) (magnitude x * magnitude y) (2 ^ 1074) := by
  obtain ⟨hxn, hxi⟩ := not_nan_inf_of_isFinite hx
  obtain ⟨hyn, hyi⟩ := not_nan_inf_of_isFinite hy
  simp only [realMul, hxn, hxi, hyn, hyi, Bool.or_self, Bool.false_eq_true, if_false, -Nat.reduceShiftLeft]
  rw [one_shiftLeft_eq_two_pow]

theorem realDiv_of_isFinite (hzero : isZero y = false) : realDiv x y =
    roundUnits (isNegative x != isNegative y) (magnitude x * 2 ^ 1074) (magnitude y) := by
  obtain ⟨hxn, hxi⟩ := not_nan_inf_of_isFinite hx
  obtain ⟨hyn, hyi⟩ := not_nan_inf_of_isFinite hy
  simp only [realDiv, hxn, hxi, hyn, hyi, hzero, Bool.or_self, Bool.false_eq_true, if_false]
  rw [shiftLeft_eq_mul_two_pow]

end

/-- Settles O47: a finite real is at distance 0 from its own value, and each operation is one rounding by definition. -/
theorem finiteRealsRoundToThemselves : Obligations.FiniteRealsRoundToThemselves := by
  refine ⟨fun x => roundUnits_magnitude, fun c x y hc hx hy => ?_⟩
  have hnx := (not_nan_inf_of_isFinite hx).1
  have hny := (not_nan_inf_of_isFinite hy).1
  simp only [numAdd_reference hc, numSub_reference hc, numMul_reference hc, numDiv_reference hc, numLt_reference hc,
    numEq_reference hc, Int.natAbs_mul, natAbs_unitsOf]
  exact ⟨realAdd_of_isFinite hx hy, realSub_of_isFinite hx hy, realMul_of_isFinite hx hy, realDiv_of_isFinite hx hy,
    realLt_eq_decide hnx hny, realEq_eq_decide hnx hny⟩

end Sys2Proof.Machine
end

section
/-! The reference slicer's loop (44_kernels R198): the first of the points at least distance. -/

namespace Sys2Proof.Machine

/-- `best` is the first of the least among the first `n` of the reals `d`. -/
structure FirstLeast (d : Nat → Real64) (n best : Nat) : Prop where
  lt : best < n
  least : ∀ j, j < n → realLt (d j) (d best) = false
  first : ∀ j, j < best → realLt (d best) (d j) = true

section
variable {d : Nat → Real64} {n best : Nat}

theorem FirstLeast.one : FirstLeast d 1 0 where
  lt := Nat.one_pos
  least j hj := by rw [Nat.lt_one_iff.1 hj]; exact realLt_irrefl (d 0)
  first j hj := absurd hj (Nat.not_lt_zero j)

/-- A next real below the least so far is the first least. -/
theorem FirstLeast.replace (h : FirstLeast d n best) (hnan : ∀ j, j < n → isNaN (d j) = false)
    (hlt : realLt (d n) (d best) = true) : FirstLeast d (n + 1) n := by
  have hbelow : ∀ j, j < n → realLt (d n) (d j) = true := fun j hj =>
    realLt_of_lt_of_not_lt (hnan j hj) hlt (h.least j hj)
  refine ⟨Nat.lt_succ_self n, fun j hj => ?_, hbelow⟩
  rcases Nat.lt_succ_iff_lt_or_eq.1 hj with hj | rfl
  · exact realLt_asymm (hbelow j hj)
  · exact realLt_irrefl (d j)

/-- Any other next real, an equal one too, leaves it. -/
theorem FirstLeast.keep (h : FirstLeast d n best) (hge : realLt (d n) (d best) = false) :
    FirstLeast d (n + 1) best where
  lt := Nat.lt_succ_of_lt h.lt
  least j hj := by
    rcases Nat.lt_succ_iff_lt_or_eq.1 hj with hj | rfl
    · exact h.least j hj
    · exact hge
  first := h.first

end

section
variable {c : Config} (hc : c.num = .reference) (s : Cplx)
include hc

/-- The loop of `nearest` keeps the first least of the distances so far. -/
theorem nearestFrom_firstLeast {d : Nat → Real64} (points : List Cplx) {i best : Nat}
    (hd : ∀ j, (h : j < points.length) → distSq c s points[j] = d (i + j))
    (hnan : ∀ j, j < i + points.length → isNaN (d j) = false) (h : FirstLeast d i best) :
    FirstLeast d (i + points.length) (nearestFrom c s i best (d best) points) := by
  induction points generalizing i best with
  | nil => exact h
  | cons p ps ih =>
    have hp : distSq c s p = d i := hd 0 (Nat.zero_lt_succ _)
    have hps : ∀ j, (hj : j < ps.length) → distSq c s ps[j] = d (i + 1 + j) := fun j hj => by
      rw [Nat.add_assoc, Nat.add_comm 1 j]
      exact hd (j + 1) (Nat.succ_lt_succ hj)
    have hlen : i + (p :: ps).length = i + 1 + ps.length := by rw [List.length_cons]; omega
    rw [hlen] at hnan ⊢
    have hnani : ∀ j, j < i → isNaN (d j) = false := fun j hj => hnan j (by omega)
    rw [nearestFrom, hp, numLt_reference hc]
    split
    case isTrue hlt => exact ih hps hnan (h.replace hnani hlt)
    case isFalse hge => exact ih hps hnan (h.keep (Bool.not_eq_true _ ▸ hge))

theorem nearest_firstLeast {points : List Cplx} (hne : points ≠ [])
    (hnan : ∀ j, j < points.length → isNaN (distSq c s (points.getD j cplxZero)) = false) :
    FirstLeast (fun j => distSq c s (points.getD j cplxZero)) points.length (nearest c points s) := by
  obtain ⟨p, ps, rfl⟩ := List.exists_cons_of_ne_nil hne
  rw [List.length_cons, Nat.add_comm ps.length 1] at *
  refine nearestFrom_firstLeast hc s ps (fun j hj => ?_) hnan FirstLeast.one
  simp [Nat.add_comm 1 j, hj]

/-- A NaN is below nothing, so that the loop of `nearest` never leaves the best so far. -/
theorem nearestFrom_of_nan {points : List Cplx} (hnan : ∀ p ∈ points, isNaN (distSq c s p) = true) (i best : Nat)
    (dbest : Real64) : nearestFrom c s i best dbest points = best := by
  induction points generalizing i with
  | nil => rfl
  | cons p ps ih =>
    obtain ⟨hp, hps⟩ := List.forall_mem_cons.1 hnan
    rw [nearestFrom, numLt_reference hc, realLt_nan (.inl hp), if_neg Bool.false_ne_true]
    exact ih hps (i + 1)

theorem nearest_of_nan {points : List Cplx} (hnan : ∀ p ∈ points, isNaN (distSq c s p) = true) :
    nearest c points s = 0 := by
  cases points with
  | nil => rfl
  | cons p ps => exact nearestFrom_of_nan hc s (List.forall_mem_cons.1 hnan).2 1 0 _

end

/-- Settles O39: the loop keeps the first least distance, and never moves from index 0 where no distance compares. -/
theorem nearestIsLeastAndLowest : Obligations.NearestIsLeastAndLowest := by
  intro c points s hne d
  refine ⟨nearest_lt_length c s (List.length_pos_iff.2 hne), fun hc hnan => ?number, fun hc hnan => ?nan⟩
  case number =>
    obtain ⟨-, hleast, hfirst⟩ := nearest_firstLeast hc s hne hnan
    exact ⟨hleast, hfirst⟩
  case nan =>
    refine nearest_of_nan hc s fun p hp => ?_
    obtain ⟨j, hj, rfl⟩ := List.getElem_of_mem hp
    have hj' : isNaN (distSq c s (points.getD j cplxZero)) = true := hnan j hj
    rwa [← List.getElem_eq_getD (h := hj)] at hj'

end Sys2Proof.Machine
end

section
/-! The angle on the axes and the diagonals and its range (44_kernels R200), and the phase that the drift loop makes of
it (43_drift_loop R182, 44_kernels R205). -/

namespace Sys2Proof.Machine

/-! ## Signs and zeros -/

theorem not_nan_of_isZero {x : Real64} (h : isZero x = true) : isNaN x = false := by
  rw [isZero, beq_iff_eq] at h
  rw [isNaN, expField_eq_div, h]
  rfl

@[simp] theorem isNaN_realNeg (x : Real64) : isNaN (realNeg x) = isNaN x := by simp [isNaN]

@[simp] theorem isZero_realNeg (x : Real64) : isZero (realNeg x) = isZero x := by
  rw [isZero, toNat_realNeg_mod, isZero]

/-- A real below or above zero is no NaN and no zero, and its sign tells which. -/
theorem signs_of_ne_zero {x : Real64} (h : 0 < magnitude x) :
    isZero x = false ∧ (unitsOf x < unitsOf 0 ↔ isNegative x = true) ∧ (unitsOf 0 < unitsOf x ↔ isNegative x = false) :=
  ⟨Bool.of_not_eq_true fun hzero => Nat.ne_of_gt h (isZero_iff.1 hzero), unitsOf_lt_iff_of_gt h,
    unitsOf_lt_iff_of_lt h⟩

theorem positive_of_realLt {x : Real64} (h : realLt 0 x = true) :
    isNaN x = false ∧ isZero x = false ∧ isNegative x = false := by
  obtain ⟨h0, hnan⟩ := not_nan_of_realLt h
  rw [realLt_iff h0 hnan] at h
  have hmag : 0 < magnitude x := by
    rw [← natAbs_unitsOf, Int.natAbs_pos]
    exact Int.ne_of_gt h
  obtain ⟨hzero, -, hsign⟩ := signs_of_ne_zero hmag
  exact ⟨hnan, hzero, hsign.1 h⟩

theorem negative_of_realLt {x : Real64} (h : realLt x 0 = true) :
    isNaN x = false ∧ isZero x = false ∧ isNegative x = true := by
  obtain ⟨hnan, h0⟩ := not_nan_of_realLt h
  rw [realLt_iff hnan h0] at h
  have hmag : 0 < magnitude x := by
    rw [← natAbs_unitsOf, Int.natAbs_pos]
    exact Int.ne_of_lt h
  obtain ⟨hzero, hsign, -⟩ := signs_of_ne_zero hmag
  exact ⟨hnan, hzero, hsign.1 h⟩

theorem realLt_realNeg_zero {x : Real64} (h : realLt 0 x = true) : realLt (realNeg x) 0 = true := by
  obtain ⟨h0, hnan⟩ := not_nan_of_realLt h
  rw [realLt_iff h0 hnan] at h
  rw [realLt_iff (by rwa [isNaN_realNeg]) h0, unitsOf_realNeg]
  exact Int.neg_neg_of_pos h

theorem realNeg_ne (x : Real64) : realNeg x ≠ x := fun h => by
  have hsign := isNegative_realNeg x
  rw [h] at hsign
  exact (Bool.not_eq_self _).1 hsign.symm

/-! ## The angle (44_kernels R200) -/

section
variable (c : Config) {z : Cplx}

theorem angle_of_zero (hre : isZero z.re = true) (him : isZero z.im = true) : angle c z = realPosZero := by
  obtain ⟨free, hangle⟩ := angle_eq_angleWith c z
  simp [hangle, angleWith, not_nan_of_isZero hre, not_nan_of_isZero him, hre, him]

theorem angle_of_positive_real (him : isZero z.im = true) (hre : realLt 0 z.re = true) :
    angle c z = realPosZero := by
  obtain ⟨free, hangle⟩ := angle_eq_angleWith c z
  obtain ⟨hnan, -, hsign⟩ := positive_of_realLt hre
  simp [hangle, angleWith, not_nan_of_isZero him, him, hnan, hsign]

theorem angle_of_negative_real (him : isZero z.im = true) (hre : realLt z.re 0 = true) : angle c z = realPi := by
  obtain ⟨free, hangle⟩ := angle_eq_angleWith c z
  obtain ⟨hnan, hzero, hsign⟩ := negative_of_realLt hre
  simp [hangle, angleWith, not_nan_of_isZero him, him, hnan, hzero, hsign]

theorem angle_of_positive_imag (hre : isZero z.re = true) (him : realLt 0 z.im = true) :
    angle c z = realHalfPi := by
  obtain ⟨free, hangle⟩ := angle_eq_angleWith c z
  obtain ⟨hnan, hzero, hsign⟩ := positive_of_realLt him
  simp [hangle, angleWith, not_nan_of_isZero hre, hre, hnan, hzero, hsign]

theorem angle_of_negative_imag (hre : isZero z.re = true) (him : realLt z.im 0 = true) :
    angle c z = realNeg realHalfPi := by
  obtain ⟨free, hangle⟩ := angle_eq_angleWith c z
  obtain ⟨hnan, hzero, hsign⟩ := negative_of_realLt him
  simp [hangle, angleWith, not_nan_of_isZero hre, hre, hnan, hzero, hsign]

theorem angle_of_diagonal {a : Real64} (h : realLt 0 a = true) : angle c ⟨a, a⟩ = realQuarterPi := by
  obtain ⟨free, hangle⟩ := angle_eq_angleWith c ⟨a, a⟩
  obtain ⟨hnan, hzero, hsign⟩ := positive_of_realLt h
  simp [hangle, angleWith, hnan, hzero, hsign]

theorem angle_of_antidiagonal {a : Real64} (h : realLt 0 a = true) :
    angle c ⟨a, realNeg a⟩ = realNeg realQuarterPi := by
  obtain ⟨free, hangle⟩ := angle_eq_angleWith c ⟨a, realNeg a⟩
  obtain ⟨hnan, hzero, hsign⟩ := positive_of_realLt h
  simp [hangle, angleWith, hnan, hzero, hsign, realNeg_ne]

/-- The range of `angle`, its upper end being one encoding. -/
theorem angle_range (hre : isNaN z.re = false) (him : isNaN z.im = false) :
    realLt (realNeg realPi) (angle c z) = true ∧ (realLt (angle c z) realPi = true ∨ angle c z = realPi) := by
  obtain ⟨free, hangle⟩ := angle_eq_angleWith c z
  have hrange := inAngleRange_angleWith free z hre him
  rw [← hangle, inAngleRange, Bool.and_eq_true, Bool.or_eq_true] at hrange
  obtain ⟨hlow, hhigh⟩ := hrange
  refine ⟨hlow, hhigh.imp id fun heq => ?_⟩
  simp only [realEq, show isZero realPi = false by decide, Bool.and_false, Bool.or_false, Bool.and_eq_true,
    beq_iff_eq] at heq
  exact heq.2

end

/-- Settles O44: on an axis the signs and zeros of the parts select the value, and no other value leaves the range. -/
theorem angleAxesAndRange : Obligations.AngleAxesAndRange := fun c _ hre him =>
  ⟨angle_of_zero c, angle_of_positive_real c, angle_of_negative_real c, angle_of_positive_imag c,
    angle_of_negative_imag c, angle_range c hre him⟩

/-! ## The phase (43_drift_loop R182) -/

theorem phaseOf_reference {c : Config} (hc : c.num = .reference) (e : Cplx) :
    phaseOf c e = realDiv (angle c e) realTwoPi := numDiv_reference hc _ _

/-- The quotient by 2π, rounded too, stays within a finite real that the exact quotient of a bound stays within. -/
theorem realDiv_realTwoPi_le {x bound q : Real64} (hbound : isFinite bound = true) (hq : isFinite q = true)
    (hle : magnitude bound * 2 ^ 1074 ≤ magnitude q * magnitude realTwoPi) (hx : magnitude x ≤ magnitude bound) :
    isFinite (realDiv x realTwoPi) = true ∧ magnitude (realDiv x realTwoPi) ≤ magnitude q := by
  have hden : 0 < magnitude realTwoPi := by decide +kernel
  rw [realDiv_of_isFinite (isFinite_of_magnitude_le hbound hx) (by decide) (by decide)]
  exact roundUnits_le _ hden hq (Nat.le_trans (Nat.mul_le_mul_right _ hx) hle)

/-- 0.5. -/
def realHalf : Real64 := 0x3FE0000000000000

theorem realHalf_bounds_of_magnitude_lt {r : Real64} (hr : isFinite r = true) (h : magnitude r < magnitude realHalf) :
    realLt (realNeg realHalf) r = true ∧ realLt r realHalf = true := by
  obtain ⟨hnan, -⟩ := not_nan_inf_of_isFinite hr
  rw [realLt_iff (by decide) hnan, realLt_iff hnan (by decide)]
  refine ⟨(unitsOf_lt_iff_of_gt ?_).2 (by decide), (unitsOf_lt_iff_of_lt h).2 (by decide)⟩
  rwa [magnitude_realNeg]

/-- The quotient of what is below π in magnitude is below 0.5, rounded too: the real next below π has one that does
not reach the real next below 0.5. -/
theorem realDiv_realTwoPi_lt_half {x : Real64} (h : magnitude x < magnitude realPi) :
    isFinite (realDiv x realTwoPi) = true ∧ magnitude (realDiv x realTwoPi) < magnitude realHalf := by
  have hbelow : magnitude x ≤ magnitude (0x400921FB54442D17 : Real64) := by
    rw [magnitude_lt_iff] at h
    exact magnitude_le_iff.2 (Nat.le_of_lt_succ h)
  obtain ⟨hfinite, hle⟩ :=
    realDiv_realTwoPi_le (q := 0x3FDFFFFFFFFFFFFF) (by decide) (by decide) (by decide +kernel) hbelow
  exact ⟨hfinite, Nat.lt_of_le_of_lt hle (by decide +kernel)⟩

/-- An angle of the range is a phase of the range. -/
theorem realDiv_realTwoPi_range {x : Real64} (hlow : realLt (realNeg realPi) x = true)
    (hhigh : realLt x realPi = true ∨ x = realPi) :
    realLt (realNeg realHalf) (realDiv x realTwoPi) = true ∧
    (realLt (realDiv x realTwoPi) realHalf = true ∨ realDiv x realTwoPi = realHalf) := by
  rcases hhigh with hhigh | rfl
  · obtain ⟨hneg, hnan⟩ := not_nan_of_realLt hlow
    rw [realLt_iff hneg hnan, unitsOf_realNeg] at hlow
    rw [realLt_iff hnan (by decide)] at hhigh
    have hlt : magnitude x < magnitude realPi := by
      rw [unitsOf_of_not_isNegative (by decide : isNegative realPi = false)] at hlow hhigh
      rw [← natAbs_unitsOf x]
      omega
    obtain ⟨hfinite, hhalf⟩ := realDiv_realTwoPi_lt_half hlt
    exact (realHalf_bounds_of_magnitude_lt hfinite hhalf).imp id .inl
  · have hhalf : realDiv realPi realTwoPi = realHalf := by decide +kernel
    rw [hhalf]
    exact ⟨by decide +kernel, .inr rfl⟩

/-- Settles O45: the five values are quotients of constants, and no angle of the range leaves the phase's range. -/
theorem phaseOnAxesAndDiagonals : Obligations.PhaseOnAxesAndDiagonals := by
  intro c hc
  refine ⟨fun a b ha hb => ?values, fun z hre him => ?range⟩
  case values =>
    have hna := realLt_realNeg_zero ha
    simp only [phaseOf_reference hc]
    rw [angle_of_negative_real c (z := ⟨realNeg a, b⟩) hb hna, angle_of_positive_imag c (z := ⟨b, a⟩) hb ha,
      angle_of_diagonal c ha, angle_of_antidiagonal c ha, angle_of_negative_imag c (z := ⟨b, realNeg a⟩) hb hna]
    decide +kernel
  case range =>
    obtain ⟨hlow, hhigh⟩ := angle_range c hre him
    rw [phaseOf_reference hc]
    exact realDiv_realTwoPi_range hlow hhigh

end Sys2Proof.Machine
end

section
/-! The reference correlator, error ratio and FIR filter as sums by index (44_kernels R197, R199, R203), and what every
`equalize_signal` returns (44_kernels R201). -/

namespace Sys2Proof.Machine

/-! ## Sums over two lists -/

/-- The pairs of two lists by index, up to the end of the shorter one. -/
theorem zip_eq_map_range {α β : Type} (as : List α) (bs : List β) (a : α) (b : β) :
    as.zip bs = (List.range (min as.length bs.length)).map fun k => (as.getD k a, bs.getD k b) := by
  refine List.ext_getElem (by rw [List.length_zip, List.length_map, List.length_range]) fun k hk _ => ?_
  obtain ⟨ha, hb⟩ := Nat.lt_min.1 (List.length_zip ▸ hk)
  rw [List.getElem_zip, List.getElem_map, List.getElem_range, ← List.getElem_eq_getD (h := ha),
    ← List.getElem_eq_getD (h := hb)]

/-! ## The correlator (R197) -/

/-- A well-formed configuration has a reference tone of `Nsym` entries for every tone (00_scope R10). -/
theorem ref_length_of_configOk {c : Config} (h : configOk c = true) {t : Nat} (ht : t < c.ntone) :
    (c.ref.getD t []).length = c.nsym := by
  obtain ⟨-, hshapes⟩ := configOk_parts h
  simp only [shapesOk, Bool.and_eq_true, beq_iff_eq, List.all_eq_true] at hshapes
  obtain ⟨⟨⟨⟨⟨⟨⟨⟨⟨-, hlen⟩, hrows⟩, -⟩, -⟩, -⟩, -⟩, -⟩, -⟩, -⟩ := hshapes
  have hlt : t < c.ref.length := by rw [hlen]; exact ht
  rw [← List.getElem_eq_getD (h := hlt)]
  exact hrows _ (List.getElem_mem hlt)

/-- Settles O41: the window and the reference tone are equally long, so that the sum over their pairs goes by index. -/
theorem correlatorFormula : Obligations.CorrelatorFormula := by
  intro c w t hok hw ht hc acc
  have hpairs := zip_eq_map_range w (c.ref.getD t []) 0 ⟨0, 0⟩
  rw [hw, ref_length_of_configOk hok ht, Nat.min_self] at hpairs
  rw [correlate, hc, refCorrelate, hpairs, List.foldl_map]
  rfl

/-! ## The FIR filter (R203) -/

theorem firFrom_length (c : Config) (h past xs : List Real64) : (firFrom c h past xs).length = xs.length := by
  induction xs generalizing past with
  | nil => rfl
  | cons x xs ih => rw [firFrom, List.length_cons, List.length_cons, ih]

/-- The sample at `m` meets the samples up to it, latest first. -/
theorem firFrom_getD (c : Config) (h past xs : List Real64) {m : Nat} (hm : m < xs.length) (x : Real64) :
    (firFrom c h past xs).getD m x = firSample c h ((xs.take (m + 1)).reverse ++ past) := by
  induction xs generalizing past m with
  | nil => exact absurd hm (Nat.not_lt_zero m)
  | cons y ys ih =>
    rw [firFrom]
    cases m with
    | zero => rfl
    | succ m =>
      rw [List.getD_cons_succ, ih _ (Nat.lt_of_succ_lt_succ hm), List.take_succ_cons, List.reverse_cons,
        List.append_assoc, List.singleton_append]

/-- Latest first, the sample `k` places before `m` stands at `k`. -/
theorem getD_reverse_take (xs : List Real64) {m k : Nat} (hm : m < xs.length) (hk : k ≤ m) (x : Real64) :
    (xs.take (m + 1)).reverse.getD k x = xs.getD (m - k) x := by
  have hlen : (xs.take (m + 1)).length = m + 1 := by rw [List.length_take, Nat.min_eq_left hm]
  rw [List.getD_eq_getElem?_getD, List.getElem?_reverse (by omega), hlen, List.getElem?_take_of_lt (by omega),
    Nat.add_sub_cancel, List.getD_eq_getElem?_getD]

theorem range_filter_le (n m : Nat) :
    (List.range n).filter (fun k => decide (k ≤ m)) = List.range (min n (m + 1)) := by
  induction n with
  | zero => rw [Nat.zero_min]; rfl
  | succ n ih =>
    rw [List.range_succ, List.filter_append, ih]
    rcases Nat.lt_or_ge m n with hlt | hge
    · have hpast : [n].filter (fun k => decide (k ≤ m)) = [] :=
        List.filter_cons_of_neg (by rw [decide_eq_true_iff]; omega)
      rw [hpast, List.append_nil, Nat.min_eq_right (by omega), Nat.min_eq_right (by omega)]
    · have hwithin : [n].filter (fun k => decide (k ≤ m)) = [n] :=
        List.filter_cons_of_pos (decide_eq_true hge)
      rw [hwithin, Nat.min_eq_left (by omega), Nat.min_eq_left (by omega), List.range_succ]

/-- One output sample as a sum over the taps that do not reach before the start. -/
theorem firSample_reverse_take (c : Config) (h xs : List Real64) {m : Nat} (hm : m < xs.length) :
    firSample c h (xs.take (m + 1)).reverse =
      ((List.range h.length).filter (fun k => decide (k ≤ m))).foldl
        (fun acc k => numAdd c acc (numMul c (h.getD k 0) (xs.getD (m - k) 0))) 0 := by
  have hlen : (xs.take (m + 1)).reverse.length = m + 1 := by
    rw [List.length_reverse, List.length_take, Nat.min_eq_left hm]
  have hpairs : h.zip (xs.take (m + 1)).reverse =
      (List.range (min h.length (m + 1))).map fun k => (h.getD k 0, xs.getD (m - k) 0) := by
    rw [zip_eq_map_range _ _ 0 0, hlen]
    refine List.map_congr_left fun k hk => ?_
    have hkm : k ≤ m := Nat.le_of_lt_succ (Nat.lt_min.1 (List.mem_range.1 hk)).2
    rw [getD_reverse_take xs hm hkm]
  rw [firSample, hpairs, List.foldl_map, range_filter_le]
  rfl

/-- Settles O42: the window of a sample, latest first, meets the taps in their order. -/
theorem firFormula : Obligations.FirFormula := by
  intro c h x hc
  have hfir : firApply c h x = firFrom c h [] x := by rw [firApply, hc, refFir]
  rw [hfir]
  refine ⟨firFrom_length c h [] x, fun m hm => ?_⟩
  rw [firFrom_getD c h [] x hm, List.append_nil, firSample_reverse_take c h x hm]

/-! ## The equalizer (R201) and the error ratio (R199) -/

theorem isFinite_of_mem_finiteList {n : Nat} {l : List Real64} {x : Real64} (h : x ∈ finiteList n l) :
    isFinite x = true := by
  obtain ⟨k, -, rfl⟩ := List.mem_map.1 h
  dsimp only
  split
  case isTrue hfinite => exact hfinite
  case isFalse => decide

/-- Settles O43: whatever the function gives is read through `finiteList`. -/
theorem equalizerReturnsFiniteCoefficients : Obligations.EqualizerReturnsFiniteCoefficients := fun _ _ =>
  ⟨equalizeSignal_length _ _, fun _ => isFinite_of_mem_finiteList⟩

theorem ratio_reference {c : Config} (hc : c.ratio = .reference) (s p : Cplx) : ratio c s p = refRatio c s p := by
  rw [ratio, hc]

/-- Settles O60: the reference quotient is R199's, operation by operation, and a symbol's point is its slice's. -/
theorem ratioFormula : Obligations.RatioFormula := fun _ _ _ hc =>
  ⟨fun _ _ => ratio_reference hc _ _, rfl⟩

end Sys2Proof.Machine
end

section
/-! What a fault leaves (60_exceptions R225, R226): every fault entry comes before the step has written anything of the
demodulator's loop. And a block that waits (60_exceptions R238). -/

namespace Sys2Proof.Machine

/-! ## The registers that no fault changes -/

/-- What a fault leaves of the demodulator's loop (60_exceptions R225): FREQ, OFFSET, H, EQVALID, SYMCNT, BLKTOT, NCORR
and LASTERR. -/
def loopRegisters (s : State) :
    Real64 × Real64 × List Real64 × Bool × BitVec 32 × Word64 × Word64 × Real64 :=
  (s.freq, s.offset, s.h, s.eqValid, s.symcnt, s.blktot, s.ncorr, s.lasterr)

theorem SameSession.loopRegisters {s t : State} (h : SameSession s t) : loopRegisters t = loopRegisters s :=
  (congrArg Machine.loopRegisters h.eq :)

theorem SameSession.cause {s t : State} (h : SameSession s t) : t.cause = s.cause := (congrArg State.cause h.eq :)

/-- `t` is what a fault makes of `s`: a cause is recorded, no RUN is in progress, and the loop is as it was. -/
structure FaultEntry (s t : State) : Prop where
  cause : t.cause ≠ .none
  run : t.run = none
  loop : loopRegisters t = loopRegisters s

/-- The one exception entry (60_exceptions R226), taken where the loop is still as it was. -/
theorem faultEntry_raiseFault {s t : State} {c : Cause} (hc : c ≠ .none) (h : loopRegisters t = loopRegisters s) :
    FaultEntry s (raiseFault c t) where
  cause := hc
  run := rfl
  loop := h

theorem FaultEntry.of_sameSession {s t u : State} (h : FaultEntry s t) (hu : SameSession t u) : FaultEntry s u where
  cause := hu.cause ▸ h.cause
  run := hu.run.trans h.run
  loop := hu.loopRegisters.trans h.loop

/-! ## The commands that can fault on the way -/

/-- TRAIN fails at a pull or at the gate, and installs the filter after both (41_equalizer_trainer R148 to R150). -/
theorem trainSession_faultEntry {s : State} (hf : (trainSession s).mode = .failed) : FaultEntry s (trainSession s) := by
  obtain ⟨k, ex, as, g, ⟨h, -⟩ | ⟨h, -⟩ | ⟨cap, -, -, -, h⟩⟩ := trainSession_cases s
  · rw [h]; exact faultEntry_raiseFault nofun rfl
  · rw [h]; exact faultEntry_raiseFault nofun rfl
  · rcases trainGate_cases (equalizeSignal s.cfg cap)
      (trainErrors s.cfg (firApply s.cfg (equalizeSignal s.cfg cap) cap)) (pullEffect k ex as g s) with
      ⟨-, hg⟩ | ⟨-, hg⟩
    · rw [h, hg] at hf; cases hf
    · rw [h, hg]; exact faultEntry_raiseFault nofun rfl

/-- A SYM step fails at its pull or at a push, and counts the block and corrects after both (42_demodulator R165 to
R168). -/
theorem symStep_faultEntry {s : State} (hm : s.mode ≠ .failed) (hf : (symStep s).mode = .failed) :
    FaultEntry s (symStep s) := by
  obtain ⟨k, ex, as, g, -, ⟨w, ps, gs, -, -, -, h⟩ | ⟨-, -, h⟩ | ⟨-, h⟩ | ⟨w, j, ps, gs, -, -, -, -, h⟩⟩ :=
    symStep_cases s
  · rw [h, driftTrigger_mode] at hf; exact absurd hf hm
  · rw [h] at hf; cases hf
  · rw [h]; exact faultEntry_raiseFault nofun rfl
  · rw [h]; exact faultEntry_raiseFault nofun rfl

/-! ## A step -/

/-- Of the changes that a step can make, only an ABORT or illegal command, a TRAIN and a SYM step come to FAILED from
another mode. -/
theorem faultEntry_of_step {s t : State} (hstep : step s = .next t) (hm : s.mode ≠ .failed) (hf : t.mode = .failed) :
    FaultEntry s t := by
  cases stepEffect_of_step hstep with
  | resets _ ht => cases hf.symm.trans ht.mode
  | keeps ht => exact absurd (ht.mode.symm.trans hf) hm
  | endsRun => exact absurd hf hm
  | faults c hc _ ht =>
    obtain ⟨hnone, -, -⟩ := hc
    exact (faultEntry_raiseFault hnone rfl).of_sameSession ht
  | adjusts => cases hf
  | trains rest =>
    obtain ⟨hcause, hrun, hloop⟩ := trainSession_faultEntry hf
    exact ⟨hcause, hrun, hloop⟩
  | demodulates ws r _ hr =>
    obtain ⟨hcause, -, hloop⟩ := symStep_faultEntry (s := { s with cmds := ws }) hm hf
    have hrun : r = none := Option.eq_none_iff_forall_ne_some.2 fun l hl => by cases hf.symm.trans (hr l hl).1
    exact ⟨hcause, hrun, hloop⟩

/-! ## The statements -/

/-- Settles O58: every way into FAILED is a fault entry that is taken before the loop is written. -/
theorem faultLeavesLoopUnchanged : Obligations.FaultLeavesLoopUnchanged := by
  intro s t hstep hm hf
  obtain ⟨hcause, hrun, hloop⟩ := faultEntry_of_step hstep hm hf
  simp only [loopRegisters, Prod.mk.injEq] at hloop
  exact ⟨hcause, hrun, hloop⟩

/-- Settles O11: with no RUN in progress and no whole command there, the fetch answers that it waits. -/
theorem waitingChangesNothing : Obligations.WaitingChangesNothing := fun _ hconfig hreset hrun hd =>
  Ready.step_of_waiting ⟨hconfig, hreset⟩ hrun hd

end Sys2Proof.Machine
end

section
/-! Reset (70_reset R250, R251): the reset input, and the state a session starts from. -/

namespace Sys2Proof.Machine

/-- Test configuration T1 of 95_test_vectors is well-formed (00_scope R10). -/
theorem configOk_t1 : configOk Config.t1 = true := by decide

/-- Settles O12: the reset input is the first thing a step looks at, and its effect is the session reset with the
pending words discarded. -/
theorem resetInputStartsSession : Obligations.ResetInputStartsSession := fun _ hconfig hreset =>
  step_of_resetIn hconfig hreset

/-- Settles O49: a fresh block of a well-formed configuration has the invariant, and the state after reset is the fresh
block of T1. -/
theorem freshBlockHasInvariant : Obligations.FreshBlockHasInvariant :=
  ⟨blockInv_fresh configOk_t1, fun _ => blockInv_fresh⟩

end Sys2Proof.Machine
end
